-- ==== Sys2Proof/Word.lean ====
section
/-! DEFINITION. The words and bytes of frames and tables, the rows of six that the manual uses throughout
(six analog channels, six lever axes, six valve sections), and running or stopped timers. -/

namespace Sys2Proof

/-- A 16-bit word of a table image (00_scope.md, Tables and images). -/
abbrev Word := BitVec 16

/-- A data byte of a frame. -/
abbrev Byte := BitVec 8

/-- The words of one table image, indexed from 0. -/
abbrev Image := List Word

/-- A timer of a block: `none` is stopped, `some d` is running and was last started for `d` milliseconds
(00_scope.md, Timers and events). The elapsed part of the run is not modelled (log entry 6). -/
abbrev Timer := Option Nat

/-- Six like things, numbered 0..5. -/
structure Six (α : Type) where
  s0 : α
  s1 : α
  s2 : α
  s3 : α
  s4 : α
  s5 : α
deriving DecidableEq, Repr

/-- The member of a row of six at an index. -/
def Six.get {α : Type} (x : Six α) (i : Fin 6) : α :=
  match i with
  | 0 => x.s0
  | 1 => x.s1
  | 2 => x.s2
  | 3 => x.s3
  | 4 => x.s4
  | 5 => x.s5

/-- The row of six whose member at `i` is `f i`. -/
def Six.build {α : Type} (f : Fin 6 → α) : Six α :=
  ⟨f 0, f 1, f 2, f 3, f 4, f 5⟩

/-- The row of six equal members. -/
def Six.same {α : Type} (a : α) : Six α :=
  ⟨a, a, a, a, a, a⟩

/-- Whether a test holds of some member. -/
def Six.any {α : Type} (x : Six α) (p : α → Bool) : Bool :=
  p x.s0 || p x.s1 || p x.s2 || p x.s3 || p x.s4 || p x.s5

end Sys2Proof
end

