-- ==== Sys2Proof/Syntax.lean ====
section
/-! DEFINITION. The commands: one constructor for each row of spec/opcode_table.json, with what the outside brings to
that step as its operands. -/

namespace Sys2Proof

/-- The two sources of demand frames (R59). -/
inductive DemandSource where
  | cab
  | aux
deriving DecidableEq, Repr

/-- The two CAN ports (11_can_ports_and_pins.md). -/
inductive PortId where
  | cab
  | crane
deriving DecidableEq, Repr

/-- What a port was doing when it detected an error (R187). -/
inductive ErrorRole where
  | transmitting
  | receiving
deriving DecidableEq, Repr

/-- A frame on a bus as a port's filter sees it (R184): a data frame with an 11-bit identifier, a remote frame, a frame
with an extended identifier, or a frame that the port itself sent. -/
inductive BusFrame where
  | data (id : Nat)
  | remote
  | extended
  | own
deriving DecidableEq, Repr

/-- What the store holds for one item (R168, R169): the words with their stored sum, the empty marker, or an item
whose write was lost, of which the manual says only that its sum does not check. -/
inductive Stored where
  | image (words : Image) (sum : Word)
  | emptyMarker
  | spoilt
deriving DecidableEq, Repr

/-- A command: one step of the part. The serving of a request takes its arguments from the oldest frame of the request
FIFO (R174), so the request commands carry no operand (log entry 2). -/
inductive Instr where
  /-- POWER_ON, with the levels of the straps NA0 and NA1 at the end of the reset (true reads 1). -/
  | powerOn (na0 na1 : Bool)
  /-- SUPPLY_DIP, with the levels of the straps NA0 and NA1 at the end of the reset (true reads 1). -/
  | supplyDip (na0 na1 : Bool)
  | softReset
  | scanTimerExpiry
  /-- SCAN_COMPLETION, with the six converter counts of the scan in the order of the channels (R3). -/
  | scanCompletion (counts : Six (BitVec 12))
  /-- SLEW_TILT_FRAME, with the frame's data bytes. -/
  | slewTiltFrame (data : List Byte)
  | slewTimerExpiry
  /-- DEMAND_FRAME, with the frame's source and data bytes. -/
  | demandFrame (source : DemandSource) (data : List Byte)
  | demandTimerExpiry
  | presenceLineChange
  | presenceOpens
  | presenceCloses
  | serviceKeyLineChange
  | keyLevelChange
  /-- STEP, one expiry of the shaper step timer. -/
  | shaperStep
  | valveTransmissionEnd
  | refreshTimerExpiry
  | settleTimerExpiry
  | windowTimerExpiry
  /-- REQUEST_FRAME_RECEIVED, with the frame's data bytes. -/
  | requestFrameReceived (data : List Byte)
  | readStatus
  | readNotices
  | setNoticeMask
  | deploy
  | stow
  | selectAssortment
  | openLoad
  | closeLoad
  | readTally
  | readRecord
  | ackRecords
  | weighNow
  | tare
  | cancelWeigh
  | openTable
  | writeWords
  | readWords
  | commit
  | discard
  | setProtection
  | persist
  /-- PERSIST_ITEM_END, with what the read-back finds in the store where that differs from what was meant to be
  written, and `none` where they are equal. -/
  | persistItemEnd (found : Option Stored)
  | resetPrepare
  | resetExecute
  | unknownRequest
  | responseTransmissionEnd
  | noticeTransmissionEnd
  /-- CAN_ERROR at a port, detected while transmitting or while receiving. -/
  | canError (port : PortId) (role : ErrorRole)
  | portRecovery (port : PortId)
  | portJoin (port : PortId)
  /-- FILTERED_FRAME, with the frame that the port's filter looks at. -/
  | filteredFrame (port : PortId) (frame : BusFrame)
  | supplyFallsBelowDipThreshold
  | recessiveRunWhileOff (port : PortId)
deriving DecidableEq, Repr

end Sys2Proof
end

