-- ==== Sys2Proof/Config.lean ====
section
/-! DEFINITION. What the enumerated fields of the tables can mean, and the free values: constants without a body that
stand for what the manual leaves open. Nothing can be proved of their values, so a statement that holds holds for
every value of them. -/

namespace Sys2Proof

/-- How a section's direction acts on the load moment (05, 5.1). -/
inductive Effect where
  | none
  | raises
  | lowers
deriving DecidableEq, Repr, Inhabited

/-- The role of an axis record (06, 6.1). -/
inductive Role where
  | none
  | lift
  | grapple
deriving DecidableEq, Repr, Inhabited

/-- The sign field of an axis record (04, 4.3). -/
inductive AxisSense where
  | normal
  | inverted
deriving DecidableEq, Repr, Inhabited

/-- What starts a weigh cycle besides a request (06, 6.1). -/
inductive TriggerMode where
  | off
  | button
  | auto
deriving DecidableEq, Repr, Inhabited

/-- Whether a retry waits through the settle delay again (06, 6.1). -/
inductive SettleMode where
  | first
  | each
deriving DecidableEq, Repr, Inhabited

/-- Which chassis tilt a sector reads (03, 3.1). -/
inductive TiltAxis where
  | pitch
  | roll
deriving DecidableEq, Repr, Inhabited

/-- The sense in which a sector reads it (03, 3.1). -/
inductive TiltSign where
  | plus
  | minus
deriving DecidableEq, Repr, Inhabited

/-! The free values. All but the last two stand for words that field validation would refuse, in an image that start-up
loading made active by its sum alone (R170 validates no field), where the manual gives them no meaning (log entries 13,
14, 29 and 32). -/

/-- The section named by a section word that is neither 0..5 nor 65535. DESIGN CHOICE, log entry 13. -/
opaque Config.sectionOf : Word → Option (Fin 6)

/-- The sense given by a sign word that is neither 0 nor 1. DESIGN CHOICE, log entry 13. -/
opaque Config.senseOf : Word → AxisSense

/-- The effect given by an effect byte above 2. DESIGN CHOICE, log entry 13. -/
opaque Config.effectOf : Byte → Effect

/-- The role given by a role word above 2. DESIGN CHOICE, log entry 13. -/
opaque Config.roleOf : Word → Role

/-- Which of several axes that name one section, or carry one role, governs it. DESIGN CHOICE, log entry 13. -/
opaque Config.axisPick : Image → Nat → Nat

/-- The output of a role (by its number) whose axis names no section: only a loaded image can hold such an axis (R154,
R170), and R107 gives 0 only where no axis has the role. DESIGN CHOICE, log entry 29. -/
opaque Config.outputWithoutSection : Image → Nat → Int

/-- Whether LIMIT, and not CLEAR, is entered at a U that is at or above the threshold of LIMIT and below warn_at: only
in a loaded image do the thresholds fail to nest (R157, R170), and then two rows of R50, R51 or R52 hold. Of the image,
the threshold and U. DESIGN CHOICE, log entry 32. -/
opaque Config.limitGoverns : Image → Nat → Nat → Bool

/-- The section byte of a valve command frame for a quotient by 8 outside a signed byte: outputs lie within
−1000..+1000 (R88) but under a loaded FMT with a gain above 1000 (R170), and R98 states no byte then. DESIGN CHOICE, log
entry 33. -/
opaque Config.wideSectionByte : Int → Byte

/-- The trigger mode given by a word above 2. DESIGN CHOICE, log entry 13. -/
opaque Config.triggerModeOf : Word → TriggerMode

/-- The settle mode given by a word above 1. DESIGN CHOICE, log entry 13. -/
opaque Config.settleModeOf : Word → SettleMode

/-- The tilt axis given by a word above 1. DESIGN CHOICE, log entry 13. -/
opaque Config.tiltAxisOf : Word → TiltAxis

/-- The tilt sign given by a word above 1. DESIGN CHOICE, log entry 13. -/
opaque Config.tiltSignOf : Word → TiltSign

/-- One less than the sector count given by a count word outside 1..8. DESIGN CHOICE, log entry 13. -/
opaque Config.sectorCountOf : Word → Fin 8

/-- The sector of a slew angle that no sector start lies at or below. DESIGN CHOICE, log entry 13. -/
opaque Config.sectorUnchosen : Image → Nat → Fin 8

/-- The quotient of R4 when the full count equals the zero count. DESIGN CHOICE, log entry 14. -/
opaque Config.zeroSpanQuotient : Int → Int

/-- The warn speed when the Limiter stands in WARN and no RCT is active, which no run reaches (R87). DESIGN CHOICE,
log entry 15. -/
opaque Config.warnSpeedWithoutChart : Nat

/-- Whether the notice starts before the response when one step brings both to a free Cab Port (R185 allows either
order). The argument is the state's counter of free choices. DESIGN CHOICE, log entry 11. -/
opaque Config.noticeFirst : Nat → Bool

end Sys2Proof
end

