-- ==== Sys2Proof/Machine/State.lean ====
section
/-! DEFINITION. The state of the F340: one record for each of the twelve blocks of 00_scope.md, the pins, the supply,
and the queue of waiting commands; and the state right after a reset of kind POWER_ON. -/

namespace Sys2Proof.Machine

/-- Faults of the machine. It has none: the manual names no event that stops the part (its FAULT is a state of the
Limiter). An empty type is safe: no step can end so. -/
inductive Fault where
deriving DecidableEq, Repr

/-- Refusals. -/
inductive Refusal where
  /-- Raised by the dispatch for a command that has no meaning yet; no arm does. Safe: the machine goes no further. -/
  | notModelled (mnemonic : String)
deriving DecidableEq, Repr

/-! ## Supply and pins -/

/-- Whether the supply stands above the dip threshold (00_scope.md, Resets). -/
inductive Power where
  | running
  | heldInReset
deriving DecidableEq, Repr

/-- The level of an input line or of a filtered level (11, 11.5). -/
inductive Level where
  | closed
  | opened
deriving DecidableEq, Repr

/-- The two input lines (00_scope.md, External connections). -/
structure Pins where
  presenceLine : Level
  serviceKeyLine : Level
deriving DecidableEq, Repr

/-! ## CAN ports -/

/-- The port state (11). -/
inductive PortMode where
  | active
  | off
deriving DecidableEq, Repr

/-- What each CAN port holds (11); `joined` is no from a reset until the port has joined its bus (R188). -/
structure Port where
  mode : PortMode
  joined : Bool
  txErrors : Nat
  rxErrors : Nat
  recovery : Nat
deriving DecidableEq, Repr

/-- The frame in flight on the Cab Port, with the identifier that it is sent on: the oldest response of the response
FIFO, or a notice with its fixed content (R179, R184, R185). -/
inductive CabFlight where
  | response (id : Nat)
  | notice (id : Nat) (content : List Byte)
deriving DecidableEq, Repr

/-- The Cab Port. -/
structure CabPort where
  port : Port
  na : Fin 4
  requests : List (List Byte)
  responses : List (List Byte)
  flight : Option CabFlight
deriving DecidableEq, Repr

/-- A valve command frame in flight, with the identifier that it is sent on (R98, R100). -/
structure ValveFrame where
  id : Nat
  content : List Byte
deriving DecidableEq, Repr

/-- The Crane Port, with the valve command frame in flight. -/
structure CranePort where
  port : Port
  flight : Option ValveFrame
deriving DecidableEq, Repr

/-! ## Scan Unit -/

/-- A channel record (01, 1.1). -/
structure Channel where
  count : BitVec 12
  value : Option Int
  outCount : Nat
  inCount : Nat
  faulted : Bool
deriving DecidableEq, Repr

/-- The slew record (01, 1.6). -/
structure SlewRecord where
  slew : Nat
  pitch : Int
  roll : Int
  stale : Bool
deriving DecidableEq, Repr

/-- The active images that a scan fixes at its start (R2); `none` is EMPTY. -/
structure FixedTables where
  cal : Option Image
  bmt : Option Image
  rct : Option Image
deriving DecidableEq, Repr

/-- The Scan Unit. -/
structure ScanUnit where
  scanTimer : Timer
  channels : Six Channel
  inProgress : Option FixedTables
  slew : SlewRecord
  slewTimer : Timer
deriving DecidableEq, Repr

/-- The engineering values of channels 0..4 that a scan record carries (R11). -/
structure Engineering where
  pPiston : Int
  pRod : Int
  angBoom : Int
  angJib : Int
  ext : Int
deriving DecidableEq, Repr

/-- The scan record handed to the LAU (R11). `values` is `none` when the CAL state is EMPTY. -/
structure ScanRecord where
  values : Option Engineering
  valid : Six Bool
  supplyFaulted : Bool
  bmt : Option Image
  rct : Option Image
  slew : SlewRecord
deriving DecidableEq, Repr

/-! ## Load Arithmetic Unit -/

/-- The cause of an INVALID load result (02, 2.2). -/
inductive InvalidCause where
  | sensor
  | noGeometry
deriving DecidableEq, Repr

/-- The rating stages of a result with rating available (R41): sector (255 while stale), t, Wr_eff and U. -/
structure Rating where
  sector : Nat
  tilt : Nat
  effective : Nat
  utilisation : Nat
deriving DecidableEq, Repr

/-- The fields of a VALID load result (02, 2.2). `weight` is W, absent exactly when the result is reach short (R31);
`rating` is absent exactly when rating is not available (R36). -/
structure ValidLoad where
  pPist : Int
  pRod : Int
  alpha : Int
  beta : Int
  ext : Nat
  force : Int
  lever : Int
  liftMoment : Int
  boomArm : Nat
  tipArm : Nat
  deadMoment : Nat
  weight : Option Int
  reach : Nat
  band : Nat
  rating : Option Rating
  slewStale : Bool
deriving DecidableEq, Repr

/-- A load result (02, 2.2). -/
inductive LoadResult where
  | invalid (cause : InvalidCause) (slewStale : Bool)
  | valid (load : ValidLoad)
deriving DecidableEq, Repr

/-! ## Limiter -/

/-- Why the Limiter stands in FAULT (03, 3.3). -/
inductive FaultCause where
  | noData
  | sensor
  | noGeometry
  | noRating
deriving DecidableEq, Repr

/-- The Limiter's state; a cause is present in FAULT only (03, 3.3). -/
inductive LimiterState where
  | clear
  | warn
  | limit
  | fault (cause : FaultCause)
deriving DecidableEq, Repr

/-- The Limiter's record. -/
structure Limiter where
  state : LimiterState
  u : Nat
deriving DecidableEq, Repr

/-! ## Demand Unit -/

/-- The crane state (04, 4.7). -/
inductive CraneState where
  | stowed
  | ready
  | active
  | held
deriving DecidableEq, Repr

/-- An owner other than NONE, with its owner neutral field, which is present only then (04, 4.2). -/
structure Ownership where
  source : DemandSource
  neutral : Bool
deriving DecidableEq, Repr

/-- The Demand Unit's record (04, 4.2). -/
structure DemandUnit where
  owner : Option Ownership
  crane : CraneState
  targets : Six Int
  timer : Timer
  weighCab : Bool
  weighAux : Bool
  presence : Level
  presenceFilter : Timer
deriving DecidableEq, Repr

/-! ## Section Shaper and Valve Output -/

/-- A pending direction (05, 5.1). -/
inductive Direction where
  | none
  | plus
  | minus
deriving DecidableEq, Repr

/-- A section record (05, 5.1). -/
structure Section where
  output : Int
  cut : Bool
  dwell : Nat
  pendingDir : Direction
deriving DecidableEq, Repr

/-- The Section Shaper. -/
structure Shaper where
  stepTimer : Timer
  sections : Six Section
deriving DecidableEq, Repr

/-- The Valve Output (05, 5.8). -/
structure ValveOutput where
  pending : Bool
  refreshTimer : Timer
deriving DecidableEq, Repr

/-! ## Weigh Unit -/

/-- What a cycle produces (06, 6.2). -/
inductive Purpose where
  | weigh
  | tare
deriving DecidableEq, Repr

/-- What started a cycle (06, 6.2). -/
inductive CycleSource where
  | button
  | auto
  | request
deriving DecidableEq, Repr

/-- The outcome of the most recent cycle that did not complete with a result (06, 6.2). -/
inductive LastCause where
  | none
  | noSample
  | unstable
  | tareRange
  | craneState
  | table
  | cancelled
  | reset
deriving DecidableEq, Repr

/-- The ten WPT fields (06, 6.1), as a cycle copies them (R115). -/
structure WeighParams where
  trigger : TriggerMode
  settle : SettleMode
  settleDelay : Nat
  nSamples : Nat
  stabilityBand : Nat
  retries : Nat
  windowTimeout : Nat
  bandLo : Nat
  bandHi : Nat
  closeThreshold : Nat
deriving DecidableEq, Repr

/-- The fields that are absent until an attempt has counted a sample (R117, R119). -/
structure Seen where
  min : Int
  max : Int
  lastR : Nat
  lastSector : Nat
deriving DecidableEq, Repr

/-- The attempt in progress or last ended (06, 6.2). -/
structure Attempt where
  sum : Int
  n : Nat
  seen : Option Seen
  uPeak : Nat
  staleSeen : Bool
  skipScan : Bool
deriving DecidableEq, Repr

/-- A kept attempt: one that gave a mean (06, 6.2). -/
structure Kept where
  mean : Int
  n : Nat
  uPeak : Nat
  lastR : Nat
  lastSector : Nat
  staleSeen : Bool
deriving DecidableEq, Repr

/-- The cycle record (06, 6.2). -/
structure Cycle where
  purpose : Purpose
  source : CycleSource
  params : WeighParams
  assortment : Fin 16
  attempt : Nat
  current : Attempt
  kept : Option Kept
deriving DecidableEq, Repr

/-- The weigh state; the cycle record is present in SETTLING and SAMPLING (06, 6.2). -/
inductive WeighPhase where
  | idle
  | armed
  | settling (cycle : Cycle)
  | sampling (cycle : Cycle)
deriving DecidableEq, Repr

/-- The Weigh Unit's record (06, 6.2). -/
structure WeighUnit where
  phase : WeighPhase
  prevGrapple : Option Int
  tare : Int
  lastCause : LastCause
  settleTimer : Timer
  windowTimer : Timer
deriving DecidableEq, Repr

/-! ## Record Unit -/

/-- The part of a lift record that the Weigh Unit hands over (R123, R130). -/
structure Weighed where
  assortment : Fin 16
  mass : Nat
  reach : Nat
  sector : Nat
  uPeak : Nat
  samples : Nat
  attempts : Nat
  unstable : Bool
  clamped : Bool
  staleSlew : Bool
  manual : Bool
deriving DecidableEq, Repr

/-- A lift record (07, 7.1): what was handed over, with the number and the flags set at arrival. -/
structure LiftRecord where
  number : Nat
  weighed : Weighed
  outside : Bool
  unload : Bool
  underrun : Bool
deriving DecidableEq, Repr

/-- How arriving records are credited (07, 7.3). -/
inductive TallyState where
  | closed
  | loading
  | unloading
deriving DecidableEq, Repr

/-- Lifts and mass of one sort. -/
structure SortTally where
  lifts : Nat
  mass : Nat
deriving DecidableEq, Repr

/-- The Record Unit (07). The tally has 16 sorts. -/
structure RecordUnit where
  queue : List LiftRecord
  nextNumber : Nat
  displaced : Nat
  tallyState : TallyState
  tally : List SortTally
  assortment : Fin 16
deriving DecidableEq, Repr

/-! ## Table Store -/

/-- The five table kinds (08, 8.1). -/
inductive Kind where
  | fmt
  | cal
  | bmt
  | rct
  | wpt
deriving DecidableEq, Repr

/-- The images of one kind (08, 8.3): `active` is `none` when EMPTY; `dirty` says that the shadow is DIRTY. -/
structure KindTable where
  active : Option Image
  shadow : Image
  dirty : Bool
deriving DecidableEq, Repr

/-- The protection mode (09). -/
inductive ProtectionMode where
  | isOpen
  | keyed
  | fixed
deriving DecidableEq, Repr

/-- The items of a PERSIST in the order of their writing (R167). -/
inductive PersistItem where
  | wpt
  | fmt
  | cal
  | bmt
  | rct
  | settings
deriving DecidableEq, Repr

/-- The persist state; while WRITING, the item being written and the content taken at the start of its write (R167). -/
inductive PersistState where
  | idle
  | writing (item : PersistItem) (taken : Stored)
deriving DecidableEq, Repr

/-- The persist result (09). -/
inductive PersistResult where
  | none
  | ok
  | failed
deriving DecidableEq, Repr

/-- The non-volatile store: five stored images and the settings record (09). -/
structure StoreContents where
  fmt : Stored
  cal : Stored
  bmt : Stored
  rct : Stored
  wpt : Stored
  settings : Stored
deriving DecidableEq, Repr

/-- The Table Store, with protection and the store (08, 09). -/
structure TableStore where
  fmt : KindTable
  cal : KindTable
  bmt : KindTable
  rct : KindTable
  wpt : KindTable
  cursorKind : Kind
  cursorIndex : Nat
  mode : ProtectionMode
  protectSet : BitVec 5
  held : Bool
  keyLevel : Level
  keyFilter : Timer
  persist : PersistState
  persistResult : PersistResult
  failedItems : BitVec 6
  stored : StoreContents
deriving DecidableEq, Repr

/-! ## Management Unit -/

/-- The reset cause (R177). -/
inductive ResetCause where
  | powerOn
  | supplyDip
  | soft
deriving DecidableEq, Repr

/-- One status page's entries, six data bytes each (10, 10.3). -/
abbrev PageReading := List (List Byte)

/-- The snapshots of the four status pages (R177). -/
structure Snapshots where
  page0 : Option PageReading
  page1 : Option PageReading
  page2 : Option PageReading
  page3 : Option PageReading
deriving DecidableEq, Repr

/-- The Management Unit (10). Bit k of `flags` and `mask` is for flag k of 10.4. -/
structure Management where
  prepare : Bool
  flags : BitVec 12
  mask : BitVec 12
  noticePending : Bool
  resetCause : ResetCause
  softResetPending : Bool
  snapshots : Snapshots
deriving DecidableEq, Repr

/-! ## The state -/

/-- The state of the part. `pending` is the queue of waiting commands, and `freeCount` counts the free choices made
(log entry 11); both are the model's own. -/
structure State where
  power : Power
  pins : Pins
  cab : CabPort
  crane : CranePort
  scan : ScanUnit
  lau : Option LoadResult
  limiter : Limiter
  demand : DemandUnit
  shaper : Shaper
  valve : ValveOutput
  weigh : WeighUnit
  records : RecordUnit
  tables : TableStore
  mgmt : Management
  pending : List Instr
  freeCount : Nat
deriving DecidableEq, Repr

/-! ## The state after a POWER_ON reset -/

/-- A port after a reset of kind POWER_ON or SUPPLY_DIP (R188). -/
def Port.afterReset : Port :=
  { mode := .active, joined := false, txErrors := 0, rxErrors := 0, recovery := 0 }

/-- A channel record after such a reset (R16). -/
def Channel.afterReset : Channel :=
  { count := 0, value := none, outCount := 0, inCount := 0, faulted := false }

/-- A section record with output 0, cut flag clear, dwell counter 0 and pending direction NONE (R85, R95, R96). -/
def Section.atRest : Section :=
  { output := 0, cut := false, dwell := 0, pendingDir := .none }

/-- The images of a kind of `n` words whose stored image does not check (R170): EMPTY, with a CLEAN shadow of zeros. -/
def KindTable.empty (n : Nat) : KindTable :=
  { active := none, shadow := List.replicate n 0, dirty := false }

/-- The store before any PERSIST: the manual gives its contents no value. DESIGN CHOICE, log entry 7: empty markers,
and a settings record that does not check. -/
def StoreContents.unwritten : StoreContents :=
  { fmt := .emptyMarker, cal := .emptyMarker, bmt := .emptyMarker, rct := .emptyMarker, wpt := .emptyMarker,
    settings := .spoilt }

/-- The part right after a reset of kind POWER_ON (R16, R20, R56, R82, R95, R105, R127, R142, R170, R171, R183,
R188), with an unwritten store (log entry 7) and with lines and straps open (log entry 8). -/
def State.reset : State :=
  { power := .running
    pins := { presenceLine := .opened, serviceKeyLine := .opened }
    cab := { port := .afterReset, na := 3, requests := [], responses := [], flight := none }
    crane := { port := .afterReset, flight := none }
    scan :=
      { scanTimer := some 10, channels := Six.same .afterReset, inProgress := none,
        slew := { slew := 0, pitch := 0, roll := 0, stale := true }, slewTimer := none }
    lau := none
    limiter := { state := .fault .noData, u := 0 }
    demand :=
      { owner := none, crane := .stowed, targets := Six.same 0, timer := none, weighCab := false, weighAux := false,
        presence := .opened, presenceFilter := none }
    shaper := { stepTimer := some 10, sections := Six.same .atRest }
    valve := { pending := false, refreshTimer := some 100 }
    weigh :=
      { phase := .idle, prevGrapple := none, tare := 0, lastCause := .none, settleTimer := none, windowTimer := none }
    records :=
      { queue := [], nextNumber := 1, displaced := 0, tallyState := .closed,
        tally := List.replicate 16 { lifts := 0, mass := 0 }, assortment := 0 }
    tables :=
      { fmt := .empty 55, cal := .empty 36, bmt := .empty 46, rct := .empty 366, wpt := .empty 10,
        cursorKind := .fmt, cursorIndex := 0, mode := .isOpen, protectSet := 0x0E, held := false,
        keyLevel := .opened, keyFilter := none, persist := .idle, persistResult := .none, failedItems := 0,
        stored := .unwritten }
    mgmt :=
      { prepare := false, flags := 0, mask := 0, noticePending := false, resetCause := .powerOn,
        softResetPending := false, snapshots := ⟨none, none, none, none⟩ }
    pending := []
    freeCount := 0 }

end Sys2Proof.Machine
end

