-- ==== Sys2Proof/Machine/Operands.lean ====
section
/-! DEFINITION. How operands are read and results are written: data bytes of frames, words of table images as the
fields of 08, 8.2, and the codes of states, requests and status. -/

namespace Sys2Proof.Machine

/-! ## Bytes and words (00_scope.md, Numbers) -/

/-- The data byte of a frame at an index. -/
def byteAt (data : List Byte) (k : Nat) : Byte :=
  data.getD k 0

/-- The unsigned little-endian pair of bytes at an index. -/
def pairAt (data : List Byte) (k : Nat) : Nat :=
  (byteAt data k).toNat + 256 * (byteAt data (k + 1)).toNat

/-- The little-endian pair of bytes at an index as a word. -/
def wordAt (data : List Byte) (k : Nat) : Word :=
  BitVec.ofNat 16 (pairAt data k)

/-- The signed little-endian pair of bytes at an index. -/
def signedPairAt (data : List Byte) (k : Nat) : Int :=
  (wordAt data k).toInt

/-- One byte of a result. -/
def byteOf (n : Nat) : Byte :=
  BitVec.ofNat 8 n

/-- Two little-endian bytes of an unsigned result. -/
def bytes2 (n : Nat) : List Byte :=
  [byteOf n, byteOf (n / 256)]

/-- Four little-endian bytes of an unsigned result. -/
def bytes4 (n : Nat) : List Byte :=
  [byteOf n, byteOf (n / 256), byteOf (n / 65536), byteOf (n / 16777216)]

/-- Two little-endian bytes of a signed result in two's complement. -/
def signed2 (x : Int) : List Byte :=
  bytes2 (BitVec.ofInt 16 x).toNat

/-- Four little-endian bytes of a signed result in two's complement. -/
def signed4 (x : Int) : List Byte :=
  bytes4 (BitVec.ofInt 32 x).toNat

/-- A flag as a bit of weight `2 ^ k`. -/
def bitOf (b : Bool) (k : Nat) : Nat :=
  if b then 2 ^ k else 0

/-- Saturation and clamping to a range (00_scope.md, Numbers). -/
def clamp (lo hi x : Int) : Int :=
  if x < lo then lo else if hi < x then hi else x

/-! ## Words of images -/

/-- The unsigned word of an image at an index. -/
def fieldAt (ws : Image) (i : Nat) : Nat :=
  (ws.getD i 0).toNat

/-- The signed word of an image at an index. -/
def signedFieldAt (ws : Image) (i : Nat) : Int :=
  (ws.getD i 0).toInt

/-- The word sum of an image: the sum of its words modulo 65536 (00_scope.md, Tables and images). -/
def wordSum (ws : Image) : Nat :=
  (ws.map BitVec.toNat).sum % 65536

/-! ## Function map (08, 8.2) -/

/-- An axis record of the function map. -/
structure AxisRecord where
  drives : Option (Fin 6)
  sense : AxisSense
  deadband : Nat
  gain : Nat
  accel : Nat
  decel : Nat
  dwell : Nat
  plusEffect : Effect
  minusEffect : Effect
  role : Role
deriving DecidableEq, Repr

/-- The refresh period of an FMT image, in steps of 10 ms. -/
def fmtRefreshPeriod (ws : Image) : Nat :=
  fieldAt ws 0

/-- The index of word `k` of an axis record; axis `i` of 0..5 is the manual's axis `i + 1`. -/
def axisIndex (i : Fin 6) (k : Nat) : Nat :=
  1 + 9 * i.val + k

/-- The section that a section word names. -/
def sectionNamed (w : Word) : Option (Fin 6) :=
  if h : w.toNat < 6 then some ⟨w.toNat, h⟩ else if w.toNat = 65535 then none else Config.sectionOf w

/-- The effect that an effect byte states. -/
def effectNamed (b : Byte) : Effect :=
  if b.toNat = 0 then .none else if b.toNat = 1 then .raises else if b.toNat = 2 then .lowers else Config.effectOf b

/-- The role that a role word states. -/
def roleNamed (w : Word) : Role :=
  if w.toNat = 0 then .none else if w.toNat = 1 then .lift else if w.toNat = 2 then .grapple else Config.roleOf w

/-- The sense that a sign word states. -/
def senseNamed (w : Word) : AxisSense :=
  if w.toNat = 0 then .normal else if w.toNat = 1 then .inverted else Config.senseOf w

/-- The axis record of axis `i` in an FMT image. -/
def fmtAxis (ws : Image) (i : Fin 6) : AxisRecord :=
  let effects := fieldAt ws (axisIndex i 7)
  { drives := sectionNamed (ws.getD (axisIndex i 0) 0)
    sense := senseNamed (ws.getD (axisIndex i 1) 0)
    deadband := fieldAt ws (axisIndex i 2)
    gain := fieldAt ws (axisIndex i 3)
    accel := fieldAt ws (axisIndex i 4)
    decel := fieldAt ws (axisIndex i 5)
    dwell := fieldAt ws (axisIndex i 6)
    plusEffect := effectNamed (byteOf effects)
    minusEffect := effectNamed (byteOf (effects / 256))
    role := roleNamed (ws.getD (axisIndex i 8) 0) }

/-- The six axes in order. -/
def allAxes : List (Fin 6) :=
  [0, 1, 2, 3, 4, 5]

/-- The one axis of a list of candidates. Commit validation leaves at most one (R154); among several, which one governs
is a free value (log entry 13). -/
def onlyAxis (ws : Image) (salt : Nat) (candidates : List (Fin 6)) : Option (Fin 6) :=
  match candidates with
  | [] => none
  | [a] => some a
  | a :: rest => some ((a :: rest).getD (Config.axisPick ws salt % (rest.length + 1)) a)

/-- The axis that drives a section, if the section is mapped (04, 4.3). -/
def axisOfSection (ws : Image) (sec : Fin 6) : Option (Fin 6) :=
  onlyAxis ws sec.val (allAxes.filter fun i => (fmtAxis ws i).drives == some sec)

/-- The axis record that drives a section under an active FMT image; with the FMT EMPTY no section is mapped (R85). -/
def sectionAxis (fmt : Option Image) (sec : Fin 6) : Option AxisRecord :=
  match fmt with
  | none => none
  | some ws => (axisOfSection ws sec).map (fmtAxis ws)

/-- A number for each role, which tells the free choices of `onlyAxis` apart. -/
def roleSalt : Role → Nat
  | .none => 6
  | .lift => 7
  | .grapple => 8

/-- The axis that has a role in an FMT image (06, 6.1). -/
def axisOfRole (ws : Image) (role : Role) : Option (Fin 6) :=
  onlyAxis ws (roleSalt role) (allAxes.filter fun i => (fmtAxis ws i).role == role)

/-! ## Calibration (08, 8.2) -/

/-- A channel's calibration record. -/
structure CalRecord where
  zero : Int
  full : Int
  lo : Int
  hi : Int
  windowLow : Nat
  windowHigh : Nat
deriving DecidableEq, Repr

/-- The calibration record of channel `c` in a CAL image. -/
def calRecord (ws : Image) (c : Fin 6) : CalRecord :=
  { zero := fieldAt ws (6 * c.val)
    full := fieldAt ws (6 * c.val + 1)
    lo := signedFieldAt ws (6 * c.val + 2)
    hi := signedFieldAt ws (6 * c.val + 3)
    windowLow := fieldAt ws (6 * c.val + 4)
    windowHigh := fieldAt ws (6 * c.val + 5) }

/-! ## Boom members (08, 8.2) -/

/-- The geometry and dead weights of a BMT image (02, 2.1); the lever curve is read by `bmtLever`. -/
structure BoomMembers where
  lp : Nat
  l1 : Nat
  l2 : Nat
  aPist : Nat
  aRod : Nat
  eMax : Nat
  w1 : Nat
  d1 : Nat
  w2 : Nat
  d2 : Nat
  w3 : Nat
  d3 : Nat
  wg : Nat
deriving DecidableEq, Repr

/-- The geometry and dead weights of a BMT image. -/
def bmtMembers (ws : Image) : BoomMembers :=
  { lp := fieldAt ws 0, l1 := fieldAt ws 1, l2 := fieldAt ws 2, aPist := fieldAt ws 3, aRod := fieldAt ws 4,
    eMax := fieldAt ws 5, w1 := fieldAt ws 6, d1 := fieldAt ws 7, w2 := fieldAt ws 8, d2 := fieldAt ws 9,
    w3 := fieldAt ws 10, d3 := fieldAt ws 11, wg := fieldAt ws 12 }

/-- Lever point `r_i` of a BMT image, `i` in 0..32. -/
def bmtLever (ws : Image) (i : Nat) : Int :=
  fieldAt ws (13 + i)

/-! ## Rated capacity (08, 8.2) -/

/-- The sector count of an RCT image, 1..8. -/
def rctSectorCount (ws : Image) : Nat :=
  let n := fieldAt ws 0
  if 1 ≤ n ∧ n ≤ 8 then n else (Config.sectorCountOf (ws.getD 0 0)).val + 1

/-- warn_at. -/
def rctWarnAt (ws : Image) : Nat :=
  fieldAt ws 1

/-- limit_at. -/
def rctLimitAt (ws : Image) : Nat :=
  fieldAt ws 2

/-- release_at. -/
def rctReleaseAt (ws : Image) : Nat :=
  fieldAt ws 3

/-- The warn speed. -/
def rctWarnSpeed (ws : Image) : Nat :=
  fieldAt ws 4

/-- The stale tilt. -/
def rctStaleTilt (ws : Image) : Nat :=
  fieldAt ws 5

/-- The start of a sector. -/
def rctStart (ws : Image) (s : Nat) : Nat :=
  fieldAt ws (6 + 4 * s)

/-- The tilt axis of a sector. -/
def rctTiltAxis (ws : Image) (s : Nat) : TiltAxis :=
  let w := ws.getD (7 + 4 * s) 0
  if w.toNat = 0 then .pitch else if w.toNat = 1 then .roll else Config.tiltAxisOf w

/-- The tilt sign of a sector. -/
def rctTiltSign (ws : Image) (s : Nat) : TiltSign :=
  let w := ws.getD (8 + 4 * s) 0
  if w.toNat = 0 then .plus else if w.toNat = 1 then .minus else Config.tiltSignOf w

/-- The derate k of a sector. -/
def rctDerate (ws : Image) (s : Nat) : Nat :=
  fieldAt ws (9 + 4 * s)

/-- The capacity of a sector at a band. -/
def rctCapacity (ws : Image) (s b : Nat) : Nat :=
  fieldAt ws (38 + 41 * s + b)

/-! ## Weigh parameters (08, 8.2) -/

/-- The ten fields of a WPT image. -/
def wptParams (ws : Image) : WeighParams :=
  let mode := ws.getD 0 0
  let settle := ws.getD 1 0
  { trigger :=
      if mode.toNat = 0 then .off else if mode.toNat = 1 then .button
      else if mode.toNat = 2 then .auto else Config.triggerModeOf mode
    settle :=
      if settle.toNat = 0 then .first else if settle.toNat = 1 then .each else Config.settleModeOf settle
    settleDelay := fieldAt ws 2
    nSamples := fieldAt ws 3
    stabilityBand := fieldAt ws 4
    retries := fieldAt ws 5
    windowTimeout := fieldAt ws 6
    bandLo := fieldAt ws 7
    bandHi := fieldAt ws 8
    closeThreshold := fieldAt ws 9 }

/-- The trigger mode of the active WPT; OFF while it is EMPTY (R108). -/
def triggerModeOf (wpt : Option Image) : TriggerMode :=
  match wpt with
  | none => .off
  | some ws => (wptParams ws).trigger

/-! ## Codes -/

/-- The crane state code (04, 4.7). -/
def CraneState.code : CraneState → Nat
  | .stowed => 0
  | .ready => 1
  | .active => 2
  | .held => 3

/-- The Limiter state code (03, 3.3). -/
def LimiterState.code : LimiterState → Nat
  | .clear => 0
  | .warn => 1
  | .limit => 2
  | .fault _ => 3

/-- The Limiter cause code of the status pages (R177). -/
def FaultCause.code : FaultCause → Nat
  | .noData => 1
  | .sensor => 2
  | .noGeometry => 3
  | .noRating => 4

/-- The Limiter cause code of a state: 0 outside FAULT (R177). -/
def LimiterState.causeCode : LimiterState → Nat
  | .fault c => c.code
  | .clear | .warn | .limit => 0

/-- The cause that an INVALID result gives the Limiter (R49). -/
def InvalidCause.toFault : InvalidCause → FaultCause
  | .sensor => .sensor
  | .noGeometry => .noGeometry

/-- The weigh state code (R176). -/
def WeighPhase.code : WeighPhase → Nat
  | .idle => 0
  | .armed => 1
  | .settling _ => 2
  | .sampling _ => 3

/-- The last cause code (R177). -/
def LastCause.code : LastCause → Nat
  | .none => 0
  | .noSample => 1
  | .unstable => 2
  | .tareRange => 3
  | .craneState => 4
  | .table => 5
  | .cancelled => 6
  | .reset => 7

/-- The reset cause code (R177). -/
def ResetCause.code : ResetCause → Nat
  | .powerOn => 0
  | .supplyDip => 1
  | .soft => 2

/-- The tally state code (R177). -/
def TallyState.code : TallyState → Nat
  | .closed => 0
  | .loading => 1
  | .unloading => 2

/-- The protection mode code (R165). -/
def ProtectionMode.code : ProtectionMode → Nat
  | .isOpen => 0
  | .keyed => 1
  | .fixed => 2

/-- The protection mode of a code, if it is one. -/
def protectionMode : Nat → Option ProtectionMode
  | 0 => some .isOpen
  | 1 => some .keyed
  | 2 => some .fixed
  | _ => none

/-- The persist result code (R177). -/
def PersistResult.code : PersistResult → Nat
  | .none => 0
  | .ok => 1
  | .failed => 2

/-- The number of an item in the order of R167, 1..6. -/
def PersistItem.number : PersistItem → Nat
  | .wpt => 1
  | .fmt => 2
  | .cal => 3
  | .bmt => 4
  | .rct => 5
  | .settings => 6

/-- The pending direction code (R177). -/
def Direction.code : Direction → Nat
  | .none => 0
  | .plus => 1
  | .minus => 2

/-- The code of a table kind (08, 8.1). -/
def Kind.code : Kind → Nat
  | .fmt => 1
  | .cal => 2
  | .bmt => 3
  | .rct => 4
  | .wpt => 5

/-- The table kind of a code, if it is 1..5. -/
def kindOfCode : Nat → Option Kind
  | 1 => some .fmt
  | 2 => some .cal
  | 3 => some .bmt
  | 4 => some .rct
  | 5 => some .wpt
  | _ => none

/-- The word count of a kind (08, 8.1). -/
def Kind.words : Kind → Nat
  | .fmt => 55
  | .cal => 36
  | .bmt => 46
  | .rct => 366
  | .wpt => 10

/-- The requests of the table of 10.1. -/
inductive Request where
  | readStatus
  | readNotices
  | setNoticeMask
  | deploy
  | stow
  | selectAssortment
  | openLoad
  | closeLoad
  | readTally
  | readRecord
  | ackRecords
  | weighNow
  | tare
  | cancelWeigh
  | openTable
  | writeWords
  | readWords
  | commit
  | discard
  | setProtection
  | persist
  | resetPrepare
  | resetExecute
deriving DecidableEq, Repr

/-- The request of a code (10, 10.1); none for a code that is not in the table. -/
def requestOfCode : Nat → Option Request
  | 0x01 => some .readStatus
  | 0x02 => some .readNotices
  | 0x03 => some .setNoticeMask
  | 0x10 => some .deploy
  | 0x11 => some .stow
  | 0x20 => some .selectAssortment
  | 0x21 => some .openLoad
  | 0x22 => some .closeLoad
  | 0x23 => some .readTally
  | 0x24 => some .readRecord
  | 0x25 => some .ackRecords
  | 0x30 => some .weighNow
  | 0x31 => some .tare
  | 0x32 => some .cancelWeigh
  | 0x40 => some .openTable
  | 0x41 => some .writeWords
  | 0x42 => some .readWords
  | 0x43 => some .commit
  | 0x44 => some .discard
  | 0x50 => some .setProtection
  | 0x51 => some .persist
  | 0x60 => some .resetPrepare
  | 0x61 => some .resetExecute
  | _ => none

/-- The request that a request frame carries in byte 0. -/
def requestOf (frame : List Byte) : Option Request :=
  requestOfCode (byteAt frame 0).toNat

/-- The status codes of 10.1. -/
inductive Status where
  | ok
  | busy
  | range
  | state
  | noTable
  | checksum
  | field
  | locked
  | notFound
  | unknown
  | sequence
deriving DecidableEq, Repr

/-- The number of a status code (10, 10.1). -/
def Status.code : Status → Nat
  | .ok => 0
  | .busy => 1
  | .range => 2
  | .state => 3
  | .noTable => 4
  | .checksum => 5
  | .field => 6
  | .locked => 7
  | .notFound => 8
  | .unknown => 9
  | .sequence => 10

/-- What the decision of a request answers: a status and the data bytes from byte 2 on; bytes not given are 0. -/
structure Reply where
  status : Status
  data : List Byte
deriving DecidableEq, Repr

/-- An answer without data: a refusal (R174), or an OK whose rule names none. -/
def Reply.bare (status : Status) : Reply :=
  { status := status, data := [] }

/-- The six data bytes of a response, with 0 in those not given (10, 10.1). -/
def padSix (data : List Byte) : List Byte :=
  [byteAt data 0, byteAt data 1, byteAt data 2, byteAt data 3, byteAt data 4, byteAt data 5]

/-- The response frame to a request frame: its code echoed, the status, the data (10, 10.1). -/
def responseTo (frame : List Byte) (r : Reply) : List Byte :=
  byteAt frame 0 :: byteOf r.status.code :: padSix r.data

/-! ## Identifiers (00_scope.md, External connections) -/

/-- The identifier of responses under a node address (R184). -/
def responseId (na : Fin 4) : Nat :=
  0x5D0 + na.val

/-- The identifier of notices under a node address (R184). -/
def noticeId (na : Fin 4) : Nat :=
  0x5E0 + na.val

/-- The identifier of valve command frames (05, 5.7). -/
def valveId : Nat :=
  0x2C4

/-- Whether a port's filter delivers a frame (R184). -/
def filterAccepts (port : PortId) (na : Fin 4) (frame : BusFrame) : Bool :=
  match port, frame with
  | .cab, .data id => id == 0x1A4 || id == 0x1A5 || id == 0x5C0 + na.val
  | .crane, .data id => id == 0x3C8
  | _, .remote => false
  | _, .extended => false
  | _, .own => false

end Sys2Proof.Machine
end

