-- ==== Sys2Proof/Machine/Flags.lean ====
section
/-! DEFINITION. The twelve notice flags (10, 10.4): raising a flag, masking, and the request of a notice frame. -/

namespace Sys2Proof.Machine

/-- The notice flags (10, 10.4). -/
inductive NoticeFlag where
  | limit
  | warn
  | fault
  | cleared
  | sensor
  | record
  | overrun
  | weighFailed
  | demandLost
  | owner
  | persist
  | port
deriving DecidableEq, Repr

/-- The bit of a flag (10, 10.4). -/
def NoticeFlag.bit : NoticeFlag → Nat
  | .limit => 0
  | .warn => 1
  | .fault => 2
  | .cleared => 3
  | .sensor => 4
  | .record => 5
  | .overrun => 6
  | .weighFailed => 7
  | .demandLost => 8
  | .owner => 9
  | .persist => 10
  | .port => 11

/-- The flag word with only this flag set. -/
def NoticeFlag.weight (f : NoticeFlag) : BitVec 12 :=
  BitVec.twoPow 12 f.bit

/-- Whether a flag is set in a flag or mask word. -/
def flagSet (word : BitVec 12) (f : NoticeFlag) : Bool :=
  word.getLsbD f.bit

/-- Raising a flag in the Management Unit (R178): it becomes set, and its change from clear to set requests a notice
frame when it is unmasked (R179). -/
def Management.raise (m : Management) (f : NoticeFlag) : Management :=
  { m with
    flags := m.flags ||| f.weight
    noticePending := m.noticePending || (!flagSet m.flags f && !flagSet m.mask f) }

/-- A block raises a flag (R178). -/
def raise (f : NoticeFlag) (s : State) : State :=
  { s with mgmt := s.mgmt.raise f }

/-- A block raises a flag when a condition holds. -/
def raiseIf (b : Bool) (f : NoticeFlag) (s : State) : State :=
  if b then raise f s else s

/-- A block raises the flag it names, if any. -/
def raiseAny (f : Option NoticeFlag) (s : State) : State :=
  match f with
  | none => s
  | some f => raise f s

/-- The content of a notice frame, from the state standing at its transmission start (R179, 10.1). -/
def noticeContent (s : State) : List Byte :=
  bytes2 s.mgmt.flags.toNat ++ [byteOf s.demand.crane.code, byteOf s.limiter.state.code] ++ bytes2 s.limiter.u

end Sys2Proof.Machine
end

