-- ==== Sys2Proof/Machine/Ops.lean ====
section
/-! DEFINITION. The shared operations: being powered, the two transmitters, the valve frame request, aborting a cycle,
moving the crane state, the images of a kind, and the serving of a request. -/

namespace Sys2Proof.Machine

/-! ## Taking a step -/

/-- The outcome of a step that the part takes only while it is running: held in reset it takes nothing (00_scope.md,
Resets; log entry 18). -/
def whileRunning (s : State) (next : State) : Host.Outcome State Fault Refusal :=
  if s.power = .running then .next next else .next s

/-! ## Ports -/

/-- A port is ACTIVE and has joined its bus; until it joins it is taken as not ACTIVE (R188). -/
def Port.up (p : Port) : Bool :=
  p.mode == .active && p.joined

/-- A successful transmission end lowers the transmit error count by 1, down to 0 (R187). -/
def Port.sent (p : Port) : Port :=
  { p with txErrors := p.txErrors - 1 }

/-- A correct reception lowers the receive error count by 1, down to 0 (R187). -/
def Port.received (p : Port) : Port :=
  { p with rxErrors := p.rxErrors - 1 }

/-- While either count is 128 or more the port signals errors passively (R187). -/
def Port.errorPassive (p : Port) : Bool :=
  128 ≤ p.txErrors || 128 ≤ p.rxErrors

/-- The Cab Port receives a frame correctly. -/
def cabReceives (s : State) : State :=
  { s with cab := { s.cab with port := s.cab.port.received } }

/-- The Crane Port receives a frame correctly. -/
def craneReceives (s : State) : State :=
  { s with crane := { s.crane with port := s.crane.port.received } }

/-! ## The Cab Port's transmitter (R179, R185) -/

/-- The Cab Port is ACTIVE, joined, and has no frame in flight. -/
def cabFree (s : State) : Bool :=
  s.cab.port.up && s.cab.flight.isNone

/-- The frame in flight is a response. -/
def CabPort.sendsResponse (c : CabPort) : Bool :=
  match c.flight with
  | some (.response _) => true
  | some (.notice _ _) => false
  | none => false

/-- The oldest response starts transmission, on the response identifier of the node address (R184, R185). -/
def startResponse (s : State) : State :=
  { s with cab := { s.cab with flight := some (.response (responseId s.cab.na)) } }

/-- The pending notice starts transmission on the notice identifier of the node address: the pending flag is cleared and
the content is fixed (R179, R184). -/
def startNotice (s : State) : State :=
  { s with
    cab := { s.cab with flight := some (.notice (noticeId s.cab.na) (noticeContent s)) }
    mgmt := { s.mgmt with noticePending := false } }

/-- A free Cab Port starts whatever waits, a response before a notice (R185). -/
def startCab (s : State) : State :=
  if cabFree s then
    if s.cab.responses ≠ [] then startResponse s
    else if s.mgmt.noticePending then startNotice s
    else s
  else s

/-- One step brought both a response and a notice to a free Cab Port: R185 allows either to start, and which one does
is a free choice (log entry 11). -/
def startCabEither (s : State) : State :=
  let t := { s with freeCount := s.freeCount + 1 }
  if Config.noticeFirst s.freeCount then startNotice t else startResponse t

/-! ## The Valve Output (R98 to R101) -/

/-- The section byte of a valve command frame: the output divided by 8, truncated toward zero, as a signed byte
(R98). A quotient that no signed byte holds, which only a loaded FMT gives, is a free byte. DESIGN CHOICE, log
entry 33. -/
def valveByte (output : Int) : Byte :=
  let quotient := Int.tdiv output 8
  if -128 ≤ quotient ∧ quotient ≤ 127 then BitVec.ofInt 8 quotient else Config.wideSectionByte quotient

/-- The content of a valve command frame, from the state standing at its transmission start (R98). -/
def valveContent (s : State) : List Byte :=
  [valveByte s.shaper.sections.s0.output, valveByte s.shaper.sections.s1.output,
   valveByte s.shaper.sections.s2.output, valveByte s.shaper.sections.s3.output,
   valveByte s.shaper.sections.s4.output, valveByte s.shaper.sections.s5.output,
   byteOf (s.demand.crane.code + 4 * s.limiter.state.code)]

/-- A valve transmission starts when the pending flag is set, no frame is in flight and the Crane Port is ACTIVE
(R100). -/
def startValve (s : State) : State :=
  if s.valve.pending && s.crane.flight.isNone && s.crane.port.up then
    { s with
      crane := { s.crane with flight := some { id := valveId, content := valveContent s } }
      valve := { s.valve with pending := false } }
  else s

/-- A valve frame is requested (R99), and starts at once where R100 lets it. -/
def requestValve (s : State) : State :=
  startValve { s with valve := { s.valve with pending := true } }

/-- The refresh period of the active FMT in milliseconds; 100 ms with the FMT EMPTY (R101). -/
def refreshMillis (fmt : Option Image) : Nat :=
  match fmt with
  | none => 100
  | some ws => 10 * fmtRefreshPeriod ws

/-- The refresh timer is restarted for the refresh period of the active FMT as it stands (R101). -/
def restartRefresh (s : State) : State :=
  { s with valve := { s.valve with refreshTimer := some (refreshMillis s.tables.fmt.active) } }

/-! ## Weigh cycles and the crane state -/

/-- The cycle record, present in SETTLING and SAMPLING (06, 6.2). -/
def WeighPhase.cycle? : WeighPhase → Option Cycle
  | .settling c => some c
  | .sampling c => some c
  | .idle => none
  | .armed => none

/-- A cycle is running. -/
def WeighPhase.running (p : WeighPhase) : Bool :=
  p.cycle?.isSome

/-- The end of a cycle: IDLE, both timers stopped, the cycle record removed, the last cause written (R122 to R125). -/
def WeighUnit.endCycle (w : WeighUnit) (cause : LastCause) : WeighUnit :=
  { w with phase := .idle, settleTimer := none, windowTimer := none, lastCause := cause }

/-- An aborting event: a cycle in SETTLING or SAMPLING is aborted with its cause, and WEIGH_FAILED is raised; otherwise
nothing is aborted (R125). -/
def abortCycle (cause : LastCause) (s : State) : State :=
  if s.weigh.phase.running then raise .weighFailed { s with weigh := s.weigh.endCycle cause } else s

/-- The crane state changes; a change out of ACTIVE is delivered to the Weigh Unit, which aborts a running cycle
(R80, R125). -/
def moveCrane (dest : CraneState) (s : State) : State :=
  let t := { s with demand := { s.demand with crane := dest } }
  if s.demand.crane = .active ∧ dest ≠ .active then abortCycle .craneState t else t

/-- An event that sends an ACTIVE crane to READY and leaves the other crane states (R66, R70, R78, R79). -/
def activeToReady (s : State) : State :=
  if s.demand.crane = .active then moveCrane .ready s else s

/-! ## Images of a kind -/

/-- The images of a kind. -/
def TableStore.kind (t : TableStore) : Kind → KindTable
  | .fmt => t.fmt
  | .cal => t.cal
  | .bmt => t.bmt
  | .rct => t.rct
  | .wpt => t.wpt

/-- The Table Store with new images of a kind. -/
def TableStore.setKind (t : TableStore) (k : Kind) (x : KindTable) : TableStore :=
  match k with
  | .fmt => { t with fmt := x }
  | .cal => { t with cal := x }
  | .bmt => { t with bmt := x }
  | .rct => { t with rct := x }
  | .wpt => { t with wpt := x }

/-- What a CLEAN shadow of a kind holds: the active words, or 0 in every word when the kind is EMPTY (R145). -/
def cleanWords (k : Kind) (active : Option Image) : Image :=
  match active with
  | some ws => ws
  | none => List.replicate k.words 0

/-- Making a kind's shadow CLEAN (R145). -/
def KindTable.clean (k : Kind) (x : KindTable) : KindTable :=
  { x with shadow := cleanWords k x.active, dirty := false }

/-- The word sum of the active image, 0 when EMPTY (R177). -/
def KindTable.activeSum (x : KindTable) : Nat :=
  match x.active with
  | some ws => wordSum ws
  | none => 0

/-! ## Serving requests (R174, R181) -/

/-- The Management Unit takes a request: the response FIFO holds fewer than 4 frames and no soft reset is pending
(R174). -/
def canTake (s : State) : Bool :=
  s.cab.responses.length < 4 && !s.mgmt.softResetPending

/-- The serving of the oldest request, when it is the request that the command names: the frame is removed, the request
is decided by its own rule, exactly one response is appended, and the prepare flag is cleared once the request has been
decided, or set by RESET_PREPARE (R174, R181). The response starts on a free Cab Port (R185); where the decision
also requested a notice on a port that was free with nothing waiting, either may start. A command whose request is not
the oldest one in the FIFO is not taken, and changes nothing (log entry 1). -/
def serve (req : Option Request) (prepareAfter : Bool) (decideRequest : List Byte → State → State × Reply)
    (s : State) : State :=
  match s.cab.requests with
  | [] => s
  | frame :: rest =>
    if canTake s ∧ requestOf frame = req then
      let r := decideRequest frame { s with cab := { s.cab with requests := rest } }
      let t : State :=
        { r.1 with
          cab := { r.1.cab with responses := r.1.cab.responses ++ [responseTo frame r.2] }
          mgmt := { r.1.mgmt with prepare := prepareAfter } }
      if cabFree s ∧ s.cab.responses = [] ∧ s.mgmt.noticePending = false ∧ t.mgmt.noticePending then
        startCabEither t
      else startCab t
    else s

end Sys2Proof.Machine
end

