-- ==== Sys2Proof/Machine/Shaper.lean ====
section
/-! DEFINITION. The Section Shaper (R84 to R97) and the Valve Output's own steps (R100 to R102): the meanings of STEP,
VALVE_TRANSMISSION_END and REFRESH_TIMER_EXPIRY, and the presence zeroing. -/

namespace Sys2Proof.Machine

/-! ## Directions -/

/-- The direction of a signed quantity (05, 5.1). -/
def directionOf (x : Int) : Direction :=
  if 0 < x then .plus else if x < 0 then .minus else .none

/-- The opposite direction. -/
def Direction.opposite : Direction → Direction
  | .plus => .minus
  | .minus => .plus
  | .none => .none

/-- The moment effect of an axis record in the direction of a signed quantity; NONE at 0 (05, 5.1). -/
def effectIn (a : AxisRecord) (x : Int) : Effect :=
  if 0 < x then a.plusEffect else if x < 0 then a.minusEffect else .none

/-- A lever target lies in a RAISES direction (05, 5.1). -/
def raises (a : AxisRecord) (x : Int) : Bool :=
  effectIn a x == .raises

/-! ## Targets -/

/-- The Limiter stands in LIMIT or FAULT. -/
def LimiterState.cuts : LimiterState → Bool
  | .limit => true
  | .fault _ => true
  | .clear => false
  | .warn => false

/-- The cut flag after its update at a step (R86). -/
def cutAfter (a : AxisRecord) (lim : LimiterState) (target : Int) (cut : Bool) : Bool :=
  if raises a target then (if lim.cuts then true else cut) else false

/-- The effective target of a mapped section, with the cut flag as updated; the first case that holds decides it
(R87). -/
def effectiveTarget (a : AxisRecord) (crane : CraneState) (lim : LimiterState) (warnSpeed : Nat) (target : Int)
    (cut : Bool) : Int :=
  if crane ≠ .active then 0
  else if cut then 0
  else if lim = .warn ∧ raises a target then target.sign * (target.natAbs * warnSpeed / 1000 : Nat)
  else target

/-- The warn speed of the active RCT; with none active, which no run reaches in WARN (R87), a free value (log
entry 15). -/
def warnSpeedOf (rct : Option Image) : Nat :=
  match rct with
  | some ws => rctWarnSpeed ws
  | none => Config.warnSpeedWithoutChart

/-! ## Ramps and dwell -/

/-- The growth of an output toward an effective target of its own sign, or from 0: its magnitude rises by accel, and
does not pass the target (R88). -/
def grown (a : AxisRecord) (e output : Int) : Int :=
  e.sign * (min (output.natAbs + a.accel) e.natAbs : Nat)

/-- The goal of a falling output: the effective target when it has the output's sign, and 0 otherwise (R89). -/
def fallGoal (e output : Int) : Int :=
  if directionOf e = directionOf output then e else 0

/-- The fall of an output toward its goal: its magnitude drops by decel, and does not pass the goal (R89). -/
def fallen (a : AxisRecord) (e output : Int) : Int :=
  output.sign * (max (output.natAbs - a.decel) (fallGoal e output).natAbs : Nat)

/-- A non-zero output falls (R89). -/
def falls (e output : Int) : Bool :=
  directionOf e != directionOf output || e.natAbs < output.natAbs

/-- The effective target is a reversal: non-zero, and its sign is the pending direction (R90). -/
def reverses (e : Int) (pending : Direction) : Bool :=
  e != 0 && directionOf e == pending

/-- The start of a section from 0 toward a non-zero effective target; when the output becomes non-zero, the pending
direction becomes the opposite sign (R88). -/
def startFromZero (a : AxisRecord) (e : Int) (r : Section) : Section :=
  let o := grown a e 0
  { r with output := o, pendingDir := if o = 0 then r.pendingDir else (directionOf o).opposite }

/-- A section standing at 0 with its dwell counter at 0 (R88, R90). -/
def moveAtZero (a : AxisRecord) (e : Int) (r : Section) : Section :=
  if e = 0 then r
  else if reverses e r.pendingDir then
    if 1 ≤ a.dwell then { r with dwell := a.dwell }
    else startFromZero a e { r with pendingDir := .none }
  else startFromZero a e r

/-- A section moving with its dwell counter at 0 (R88 to R90). -/
def moveAway (a : AxisRecord) (e : Int) (r : Section) : Section :=
  if falls e r.output then
    let o := fallen a e r.output
    if o = 0 ∧ reverses e r.pendingDir then
      if 1 ≤ a.dwell then { r with output := 0, dwell := a.dwell }
      else { r with output := 0, pendingDir := .none }
    else { r with output := o }
  else { r with output := grown a e r.output }

/-- A section whose dwell counter is above 0: the counter falls by 1, the output is held at 0, and the pending
direction becomes NONE when the counter reaches 0 (R91). -/
def holdDwell (r : Section) : Section :=
  { r with
    output := 0
    dwell := r.dwell - 1
    pendingDir := if r.dwell = 1 then .none else r.pendingDir }

/-- The movement of a mapped section toward its effective target (R88 to R91). -/
def moveSection (a : AxisRecord) (e : Int) (r : Section) : Section :=
  if r.dwell ≠ 0 then holdDwell r
  else if r.output = 0 then moveAtZero a e r
  else moveAway a e r

/-- One section at a step: an unmapped section is set to rest (R85), a mapped one updates its cut flag and moves toward
its effective target (R86 to R91). -/
def stepSection (axis : Option AxisRecord) (crane : CraneState) (lim : LimiterState) (warnSpeed : Nat) (target : Int)
    (r : Section) : Section :=
  match axis with
  | none => .atRest
  | some a =>
    let cut := cutAfter a lim target r.cut
    { moveSection a (effectiveTarget a crane lim warnSpeed target cut) r with cut := cut }

/-- The six section records after a step, from what the step reads (R84). -/
def sectionsAfterStep (s : State) : Six Section :=
  Six.build fun k =>
    stepSection (sectionAxis s.tables.fmt.active k) s.demand.crane s.limiter.state (warnSpeedOf s.tables.rct.active)
      (s.demand.targets.get k) (s.shaper.sections.get k)

/-- The six outputs of the section records. -/
def outputs (x : Six Section) : Six Int :=
  Six.build fun k => (x.get k).output

/-- STEP: all six sections move; a step that changes an output requests a valve frame (R84, R92). -/
def execShaperStep (s : State) : Host.Outcome State Fault Refusal :=
  whileRunning s <|
    let after := sectionsAfterStep s
    let t := { s with shaper := { stepTimer := some 10, sections := after } }
    if outputs after = outputs s.shaper.sections then t else requestValve t

/-! ## Presence zeroing -/

/-- The presence zeroing of one section: a mapped section with a non-zero output is set to 0 at once and its dwell
loaded; the pending direction becomes NONE at once when the dwell is 0 (R94). -/
def zeroSection (axis : Option AxisRecord) (r : Section) : Section :=
  match axis with
  | none => r
  | some a =>
    if r.output = 0 then r
    else { r with output := 0, dwell := a.dwell, pendingDir := if a.dwell = 0 then .none else r.pendingDir }

/-- The Section Shaper takes a PRESENCE opens event, and requests a valve frame whether or not any output was
non-zero (R94). -/
def presenceZeroing (s : State) : State :=
  requestValve
    { s with
      shaper :=
        { s.shaper with
          sections :=
            Six.build fun k => zeroSection (sectionAxis s.tables.fmt.active k) (s.shaper.sections.get k) } }

/-! ## The Valve Output -/

/-- VALVE_TRANSMISSION_END: the frame leaves flight, the refresh timer restarts, and a pending frame starts (R100,
R101, R187). -/
def execValveTransmissionEnd (s : State) : Host.Outcome State Fault Refusal :=
  whileRunning s <|
    if s.crane.port.up ∧ s.crane.flight.isSome then
      startValve (restartRefresh { s with crane := { port := s.crane.port.sent, flight := none } })
    else s

/-- REFRESH_TIMER_EXPIRY: a frame is requested, and the timer stays stopped (R102). -/
def execRefreshTimerExpiry (s : State) : Host.Outcome State Fault Refusal :=
  whileRunning s <|
    match s.valve.refreshTimer with
    | none => s
    | some _ => requestValve { s with valve := { s.valve with refreshTimer := none } }

end Sys2Proof.Machine
end

