-- ==== Sys2Proof/Machine/Records.lean ====
section
/-! DEFINITION. The Record Unit: arrival, displacement, crediting (R130 to R133), and the meanings of its requests
READ_RECORD, ACK_RECORDS, SELECT_ASSORTMENT, OPEN_LOAD, CLOSE_LOAD and READ_TALLY (R134 to R141). -/

namespace Sys2Proof.Machine

/-! ## Arrival -/

/-- The most records that the queue holds (R131). -/
def queueLimit : Nat :=
  48

/-- The number after a number: from 65535 it goes to 1 (R131). -/
def numberAfter (n : Nat) : Nat :=
  if n = 65535 then 1 else n + 1

/-- The credit of a sort in a tally state (R133). -/
def creditSort (t : TallyState) (mass : Nat) (x : SortTally) : SortTally :=
  match t with
  | .loading => { lifts := min (x.lifts + 1) 65535, mass := min (x.mass + mass) 4294967295 }
  | .unloading => { lifts := min (x.lifts + 1) 65535, mass := x.mass - mass }
  | .closed => x

/-- The tally of one sort. -/
def sortAt (tally : List SortTally) (k : Nat) : SortTally :=
  tally.getD k { lifts := 0, mass := 0 }

/-- The record as it is queued: the reach limited to 65535 (R130), the number (R131), and the flags OUTSIDE, UNLOAD and
UNDERRUN from the tally as it stands before the credit (R133). -/
def completedRecord (u : RecordUnit) (r : Weighed) : LiftRecord :=
  { number := u.nextNumber
    weighed := { r with reach := min r.reach 65535 }
    outside := u.tallyState == .closed
    unload := u.tallyState == .unloading
    underrun := u.tallyState == .unloading && (sortAt u.tally r.assortment.val).mass < r.mass }

/-- The queue is full, so an arrival displaces the oldest record (R132). -/
def RecordUnit.full (u : RecordUnit) : Bool :=
  queueLimit ≤ u.queue.length

/-- The Record Unit after an arrival: number, displacement, credit, append (R131 to R133). -/
def RecordUnit.arrive (u : RecordUnit) (r : Weighed) : RecordUnit :=
  { queue := (if u.full then u.queue.drop 1 else u.queue) ++ [completedRecord u r]
    nextNumber := numberAfter u.nextNumber
    displaced := if u.full then min (u.displaced + 1) 255 else u.displaced
    tallyState := u.tallyState
    tally := u.tally.modify r.assortment.val (creditSort u.tallyState r.mass)
    assortment := u.assortment }

/-- A record arrives (R131); OVERRUN is raised at a displacement (R132), RECORD at every arrival. -/
def recordArrives (r : Weighed) (s : State) : State :=
  raise .record (raiseIf s.records.full .overrun { s with records := s.records.arrive r })

/-! ## Reading the queue -/

/-- Part 0 of a record (07, 7.4). Bits 4–6 of byte 6 hold the low three bits of the attempts, and bit 7 is 0; only
retries above 5, in a WPT that start-up loading took by its sum alone (R168, R170), give more than 7 attempts, and the
model then drops the higher bits (log entry 22). -/
def recordPart0 (r : LiftRecord) : List Byte :=
  let w := r.weighed
  bytes2 r.number ++ bytes2 w.mass ++
    [byteOf (w.assortment.val + 16 * (w.attempts % 8)),
     byteOf (bitOf w.unstable 0 + bitOf w.clamped 1 + bitOf w.staleSlew 2 + bitOf w.manual 3 + bitOf r.outside 4 +
       bitOf r.unload 5 + bitOf r.underrun 6)]

/-- Part 1 of a record (07, 7.4). -/
def recordPart1 (r : LiftRecord) : List Byte :=
  let w := r.weighed
  bytes2 w.reach ++ bytes2 w.uPeak ++ [byteOf w.sector, byteOf w.samples]

/-- The decision of READ_RECORD: the first case that holds (R134). -/
def decideReadRecord (frame : List Byte) (s : State) : State × Reply :=
  let index := (byteAt frame 1).toNat
  let part := (byteAt frame 2).toNat
  if 1 < part then (s, .bare .range)
  else
    match s.records.queue[index]? with
    | none => (s, .bare .notFound)
    | some r => (s, { status := .ok, data := if part = 0 then recordPart0 r else recordPart1 r })

/-- READ_RECORD: one part of the queued record at an index (R134). -/
def execReadRecord (s : State) : Host.Outcome State Fault Refusal :=
  whileRunning s (serve (some .readRecord) false decideReadRecord s)

/-- The records newer than the one of a number; none when no queued record has the number (R136). -/
def newerThan (number : Nat) : List LiftRecord → Option (List LiftRecord)
  | [] => none
  | r :: rest => if r.number = number then some rest else newerThan number rest

/-- The decision of ACK_RECORDS (R136). -/
def decideAckRecords (frame : List Byte) (s : State) : State × Reply :=
  match newerThan (pairAt frame 1) s.records.queue with
  | none => (s, .bare .notFound)
  | some rest =>
    ({ s with records := { s.records with queue := rest } },
      { status := .ok, data := [byteOf (s.records.queue.length - rest.length), byteOf rest.length] })

/-- ACK_RECORDS: every record up to and including the named number is removed, or NOT_FOUND (R136). -/
def execAckRecords (s : State) : Host.Outcome State Fault Refusal :=
  whileRunning s (serve (some .ackRecords) false decideAckRecords s)

/-! ## Assortment and tally -/

/-- The decision of SELECT_ASSORTMENT (R138). -/
def decideSelectAssortment (frame : List Byte) (s : State) : State × Reply :=
  let sort := (byteAt frame 1).toNat
  if h : sort < 16 then
    ({ s with records := { s.records with assortment := ⟨sort, h⟩ } }, { status := .ok, data := [byteOf sort] })
  else (s, .bare .range)

/-- SELECT_ASSORTMENT: the current assortment is set, or RANGE (R138). -/
def execSelectAssortment (s : State) : Host.Outcome State Fault Refusal :=
  whileRunning s (serve (some .selectAssortment) false decideSelectAssortment s)

/-- The Record Unit after an accepted OPEN_LOAD: all sorts and the displaced count cleared, the tally state set
(R139). -/
def RecordUnit.openLoad (u : RecordUnit) (t : TallyState) : RecordUnit :=
  { u with tally := List.replicate 16 { lifts := 0, mass := 0 }, displaced := 0, tallyState := t }

/-- The decision of OPEN_LOAD (R139). -/
def decideOpenLoad (frame : List Byte) (s : State) : State × Reply :=
  let mode := (byteAt frame 1).toNat
  if mode = 1 then ({ s with records := s.records.openLoad .loading }, .bare .ok)
  else if mode = 2 then ({ s with records := s.records.openLoad .unloading }, .bare .ok)
  else (s, .bare .range)

/-- OPEN_LOAD: the tally and the displaced count are cleared and the tally state set, or RANGE (R139). -/
def execOpenLoad (s : State) : Host.Outcome State Fault Refusal :=
  whileRunning s (serve (some .openLoad) false decideOpenLoad s)

/-- The decision of CLOSE_LOAD (R140). -/
def decideCloseLoad (_frame : List Byte) (s : State) : State × Reply :=
  ({ s with records := { s.records with tallyState := .closed } }, .bare .ok)

/-- CLOSE_LOAD: the tally state becomes CLOSED (R140). -/
def execCloseLoad (s : State) : Host.Outcome State Fault Refusal :=
  whileRunning s (serve (some .closeLoad) false decideCloseLoad s)

/-- The sums over all sorts, each limited to its range (R141). -/
def tallySums (tally : List SortTally) : SortTally :=
  { lifts := min (tally.map SortTally.lifts).sum 65535, mass := min (tally.map SortTally.mass).sum 4294967295 }

/-- The data bytes of a sort or of the sums (R141). -/
def tallyData (x : SortTally) : List Byte :=
  bytes2 x.lifts ++ bytes4 x.mass

/-- The decision of READ_TALLY (R141). -/
def decideReadTally (frame : List Byte) (s : State) : State × Reply :=
  let sort := (byteAt frame 1).toNat
  if sort < 16 then (s, { status := .ok, data := tallyData (sortAt s.records.tally sort) })
  else if sort = 16 then (s, { status := .ok, data := tallyData (tallySums s.records.tally) })
  else (s, .bare .range)

/-- READ_TALLY: the lifts and mass of one sort or the sums of all (R141). -/
def execReadTally (s : State) : Host.Outcome State Fault Refusal :=
  whileRunning s (serve (some .readTally) false decideReadTally s)

end Sys2Proof.Machine
end

