-- ==== Sys2Proof/Machine/Weigh.lean ====
section
/-! DEFINITION. The Weigh Unit: triggers, settle, sampling, stability, retries, completion and tare (R107 to R129),
with the meanings of SETTLE_TIMER_EXPIRY, WINDOW_TIMER_EXPIRY, WEIGH_NOW, TARE and CANCEL_WEIGH. -/

namespace Sys2Proof.Machine

/-- What a piece of the Weigh Unit's work hands out: nothing, a failure to be signalled by WEIGH_FAILED, or a lift
record for the Record Unit. -/
inductive WeighEvent where
  | nothing
  | failed
  | completed (record : Weighed)
deriving DecidableEq, Repr

/-! ## Attempts and cycles -/

/-- An attempt with nothing counted (R115, R117). -/
def freshAttempt (skip : Bool) : Attempt :=
  { sum := 0, n := 0, seen := none, uPeak := 0, staleSeen := false, skipScan := skip }

/-- Entry to SAMPLING: the attempt is cleared, the window timer started, and skip scan set when a scan is in progress
(R117). -/
def enterSampling (c : Cycle) (scanBusy : Bool) (w : WeighUnit) : WeighUnit :=
  { w with
    phase := .sampling { c with current := freshAttempt scanBusy }
    settleTimer := none
    windowTimer := some (10 * c.params.windowTimeout) }

/-- Entry to SETTLING, with the settle timer started for the settle delay (R115, R122). -/
def enterSettling (c : Cycle) (w : WeighUnit) : WeighUnit :=
  { w with phase := .settling c, settleTimer := some (10 * c.params.settleDelay), windowTimer := none }

/-- A cycle starts (R115): SETTLING with a settle delay of 1 or more, SAMPLING at once with 0. -/
def startCycle (purpose : Purpose) (source : CycleSource) (params : WeighParams) (assortment : Fin 16)
    (scanBusy : Bool) (w : WeighUnit) : WeighUnit :=
  let c : Cycle :=
    { purpose := purpose, source := source, params := params, assortment := assortment, attempt := 1,
      current := freshAttempt false, kept := none }
  if 1 ≤ params.settleDelay then enterSettling c w else enterSampling c scanBusy w

/-- The mean of a sum over n samples, rounded to the nearest whole daN with halves away from zero (R120). -/
def meanOf (sum : Int) (n : Nat) : Int :=
  sum.sign * ((2 * sum.natAbs + n) / (2 * n) : Nat)

/-- The mass in kilograms of a net weight of 0 or more in daN (R123). -/
def massOf (net : Nat) : Nat :=
  (net * 10197 + 5000) / 10000

/-- The lift record of a completing WEIGH cycle, with the tare offset as it stands (R123). -/
def weighedOf (c : Cycle) (k : Kept) (unstable : Bool) (tare : Int) : Weighed :=
  let net := k.mean - tare
  { assortment := c.assortment
    mass := massOf net.toNat
    reach := k.lastR
    sector := k.lastSector
    uPeak := k.uPeak
    samples := k.n
    attempts := c.attempt
    unstable := unstable
    clamped := net < 0
    staleSlew := k.staleSeen
    manual := c.source == .request }

/-- A WEIGH cycle completes with an attempt that gave a mean (R123). -/
def completeWeigh (c : Cycle) (k : Kept) (unstable : Bool) (w : WeighUnit) : WeighUnit × WeighEvent :=
  (w.endCycle .none, .completed (weighedOf c k unstable w.tare))

/-- A TARE cycle ends with a stable mean: it becomes the tare offset when it lies in −500..+500, else the cycle fails
(R124). -/
def completeTare (mean : Int) (w : WeighUnit) : WeighUnit × WeighEvent :=
  if -500 ≤ mean ∧ mean ≤ 500 then ({ w.endCycle .none with tare := mean }, .nothing)
  else (w.endCycle .tareRange, .failed)

/-- After an unstable or void attempt, with the kept attempt already updated in `c`: a retry, or the end of the cycle
when the retries are exhausted (R122). -/
def afterAttempt (c : Cycle) (scanBusy : Bool) (w : WeighUnit) : WeighUnit × WeighEvent :=
  if c.attempt ≤ c.params.retries then
    let next := { c with attempt := c.attempt + 1 }
    if c.params.settle = .each ∧ 1 ≤ c.params.settleDelay then (enterSettling next w, .nothing)
    else (enterSampling next scanBusy w, .nothing)
  else
    match c.purpose, c.kept with
    | .weigh, some k => completeWeigh c k true w
    | .weigh, none => (w.endCycle .noSample, .failed)
    | .tare, some _ => (w.endCycle .unstable, .failed)
    | .tare, none => (w.endCycle .noSample, .failed)

/-- What an attempt that has counted a sample leaves: its mean and what goes with it (R120, R121). -/
def keptOf (a : Attempt) (s : Seen) : Kept :=
  { mean := meanOf a.sum a.n, n := a.n, uPeak := a.uPeak, lastR := s.lastR, lastSector := s.lastSector,
    staleSeen := a.staleSeen }

/-! ## Samples -/

/-- The fields of a sample that a load result gives beside W and R: U when it carries one, and its sector, 255 when it
carries none (R119). -/
def sampleU (v : ValidLoad) : Nat :=
  match v.rating with
  | some q => q.utilisation
  | none => 0

/-- The sector of a counted sample (R119). -/
def sampleSector (v : ValidLoad) : Nat :=
  match v.rating with
  | some q => q.sector
  | none => 255

/-- What an attempt has seen after counting a sample of weight `x` (R119). -/
def seenAfter (v : ValidLoad) (x : Int) (seen : Option Seen) : Seen :=
  { min := match seen with
      | some s => min s.min x
      | none => x
    max := match seen with
      | some s => max s.max x
      | none => x
    lastR := v.reach
    lastSector := sampleSector v }

/-- An attempt after counting a sample of weight `x` (R119). -/
def countSample (v : ValidLoad) (x : Int) (a : Attempt) : Attempt :=
  { sum := a.sum + x
    n := a.n + 1
    seen := some (seenAfter v x a.seen)
    uPeak := max a.uPeak (sampleU v)
    staleSeen := a.staleSeen || v.slewStale
    skipScan := a.skipScan }

/-- The end of an attempt at its N-th sample: a stable attempt completes the cycle, an unstable one is kept (R120). -/
def endFullAttempt (c : Cycle) (a : Attempt) (seen : Seen) (scanBusy : Bool) (w : WeighUnit) :
    WeighUnit × WeighEvent :=
  let k := keptOf a seen
  if seen.max - seen.min ≤ c.params.stabilityBand then
    match c.purpose with
    | .weigh => completeWeigh { c with current := a } k false w
    | .tare => completeTare k.mean w
  else afterAttempt { c with current := a, kept := some k } scanBusy w

/-- A load result in SAMPLING: counted when it qualifies, passed over otherwise (R119, R120). The result of the scan in
progress at the entry is not counted, whatever it holds (R117). -/
def takeSample (c : Cycle) (lift : Int) (r : LoadResult) (scanBusy : Bool) (w : WeighUnit) :
    WeighUnit × WeighEvent :=
  if c.current.skipScan then
    ({ w with phase := .sampling { c with current := { c.current with skipScan := false } } }, .nothing)
  else
    match r with
    | .invalid _ _ => (w, .nothing)
    | .valid v =>
      match v.weight with
      | none => (w, .nothing)
      | some x =>
        if (c.params.bandLo : Int) ≤ lift ∧ lift ≤ c.params.bandHi then
          let a := countSample v x c.current
          if a.n = c.params.nSamples then endFullAttempt c a (seenAfter v x c.current.seen) scanBusy w
          else ({ w with phase := .sampling { c with current := a } }, .nothing)
        else (w, .nothing)

/-- The window timer's expiry in SAMPLING: the attempt ends unstable, or void with nothing counted (R121). -/
def endWindow (c : Cycle) (scanBusy : Bool) (w : WeighUnit) : WeighUnit × WeighEvent :=
  match c.current.seen with
  | some seen => afterAttempt { c with kept := some (keptOf c.current seen) } scanBusy w
  | none => afterAttempt c scanBusy w

/-! ## Triggers at a load result -/

/-- AUTO arming in IDLE: the GRAPPLE output has crossed to or below the negative close threshold since the previous
load result (R111). -/
def arms (wpt : Option Image) (prev : Option Int) (grapple : Int) : Bool :=
  match wpt, prev with
  | some ws, some p =>
    let w := wptParams ws
    w.trigger == .auto && grapple ≤ -(w.closeThreshold : Int) && -(w.closeThreshold : Int) < p
  | _, _ => false

/-- A load result in ARMED: disarming at the close threshold in every mode, else firing in mode AUTO with the LIFT
output in the lift band and the crane ACTIVE (R112, R113). With the WPT EMPTY, which no run reaches in ARMED, there is
no close threshold, and the unit is left as it is (log entry 31). -/
def whenArmed (wpt : Option Image) (crane : CraneState) (assortment : Fin 16) (lift grapple : Int)
    (scanBusy : Bool) (w : WeighUnit) : WeighUnit :=
  match wpt with
  | none => w
  | some ws =>
    let p := wptParams ws
    if (p.closeThreshold : Int) ≤ grapple then { w with phase := .idle }
    else if p.trigger = .auto ∧ (p.bandLo : Int) ≤ lift ∧ lift ≤ p.bandHi ∧ crane = .active then
      startCycle .weigh .auto p assortment scanBusy w
    else w

/-! ## The Weigh Unit in the state -/

/-- The Scan Unit has a scan in progress. -/
def scanBusy (s : State) : Bool :=
  s.scan.inProgress.isSome

/-- What the Weigh Unit hands out reaches the other blocks: WEIGH_FAILED is raised, or the record arrives at the Record
Unit. -/
def weighHandsOut (e : WeighEvent) (s : State) : State :=
  match e with
  | .nothing => s
  | .failed => raise .weighFailed s
  | .completed r => recordArrives r s

/-- The Weigh Unit's record becomes that of a piece of work, and what it hands out reaches the other blocks. -/
def weighWorks (r : WeighUnit × WeighEvent) (s : State) : State :=
  weighHandsOut r.2 { s with weigh := r.1 }

/-- The output of the section of a role, 0 when the FMT is EMPTY or no axis of it has the role (R107). An axis that has
the role and names no section is possible only in an image that no commit validated (R154, R170); R107 does not say
what its output is, and the model takes a free value (log entry 29). -/
def roleOutput (s : State) (role : Role) : Int :=
  match s.tables.fmt.active with
  | none => 0
  | some ws =>
    match axisOfRole ws role with
    | none => 0
    | some i =>
      match (fmtAxis ws i).drives with
      | some k => (s.shaper.sections.get k).output
      | none => Config.outputWithoutSection ws (roleSalt role)

/-- The Weigh Unit's work at a load result by its weigh state, before previous GRAPPLE is written (R107). -/
def weighAtResult (r : LoadResult) (s : State) : WeighUnit × WeighEvent :=
  let lift := roleOutput s .lift
  let grapple := roleOutput s .grapple
  match s.weigh.phase with
  | .idle =>
    (if arms s.tables.wpt.active s.weigh.prevGrapple grapple then { s.weigh with phase := .armed } else s.weigh,
      .nothing)
  | .armed =>
    (whenArmed s.tables.wpt.active s.demand.crane s.records.assortment lift grapple (scanBusy s) s.weigh, .nothing)
  | .settling _ => (s.weigh, .nothing)
  | .sampling c => takeSample c lift r (scanBusy s) s.weigh

/-- The Weigh Unit takes a load result whole at its offer, and then writes previous GRAPPLE (R107). -/
def weighTakes (r : LoadResult) (s : State) : State :=
  let w := weighAtResult r s
  weighWorks ({ w.1 with prevGrapple := some (roleOutput s .grapple) }, w.2) s

/-- A rising edge of the owner's WEIGH button, with the crane state that stands (R109). -/
def weighEdge (s : State) : State :=
  match s.tables.wpt.active with
  | none => s
  | some ws =>
    if (wptParams ws).trigger = .button ∧ s.weigh.phase = .idle ∧ s.demand.crane = .active then
      { s with
        weigh := startCycle .weigh .button (wptParams ws) s.records.assortment (scanBusy s) s.weigh }
    else s

/-- The decision of WEIGH_NOW and TARE, by purpose: the first case that holds (R114). -/
def requestCycle (purpose : Purpose) (s : State) : State × Reply :=
  match s.tables.wpt.active with
  | none => (s, .bare .noTable)
  | some ws =>
    if s.weigh.phase.running then (s, .bare .busy)
    else if s.demand.crane ≠ .active then (s, .bare .state)
    else
      let w := startCycle purpose .request (wptParams ws) s.records.assortment (scanBusy s) s.weigh
      ({ s with weigh := w }, { status := .ok, data := [byteOf w.phase.code] })

/-! ## Meanings -/

/-- SETTLE_TIMER_EXPIRY: the cycle enters SAMPLING (R116). The timer runs in SETTLING alone. -/
def execSettleTimerExpiry (s : State) : Host.Outcome State Fault Refusal :=
  whileRunning s <|
    match s.weigh.phase, s.weigh.settleTimer with
    | .settling c, some _ => { s with weigh := enterSampling c (scanBusy s) s.weigh }
    | _, _ => s

/-- WINDOW_TIMER_EXPIRY: the attempt ends as unstable or void (R121, R122). -/
def execWindowTimerExpiry (s : State) : Host.Outcome State Fault Refusal :=
  whileRunning s <|
    match s.weigh.phase, s.weigh.windowTimer with
    | .sampling c, some _ => startCab (weighWorks (endWindow c (scanBusy s) s.weigh) s)
    | _, _ => s

/-- The decision of WEIGH_NOW (R114). -/
def decideWeighNow (_frame : List Byte) (s : State) : State × Reply :=
  requestCycle .weigh s

/-- WEIGH_NOW: a WEIGH cycle with source REQUEST starts, or is refused (R114). -/
def execWeighNow (s : State) : Host.Outcome State Fault Refusal :=
  whileRunning s (serve (some .weighNow) false decideWeighNow s)

/-- The decision of TARE (R114). -/
def decideTare (_frame : List Byte) (s : State) : State × Reply :=
  requestCycle .tare s

/-- TARE: a TARE cycle with source REQUEST starts, or is refused (R114). -/
def execTare (s : State) : Host.Outcome State Fault Refusal :=
  whileRunning s (serve (some .tare) false decideTare s)

/-- The decision of CANCEL_WEIGH: a running cycle is aborted, an ARMED unit returns to IDLE, an IDLE unit is left
(R126). -/
def decideCancelWeigh (_frame : List Byte) (s : State) : State × Reply :=
  let t :=
    if s.weigh.phase.running then abortCycle .cancelled s
    else { s with weigh := { s.weigh with phase := .idle } }
  (t, { status := .ok, data := [byteOf t.weigh.phase.code] })

/-- CANCEL_WEIGH: answered OK in every weigh state (R126). -/
def execCancelWeigh (s : State) : Host.Outcome State Fault Refusal :=
  whileRunning s (serve (some .cancelWeigh) false decideCancelWeigh s)

end Sys2Proof.Machine
end

