-- ==== Sys2Proof/Machine/Demand.lean ====
section
/-! DEFINITION. The Demand Unit (R59 to R83): the meanings of DEMAND_FRAME, DEMAND_TIMER_EXPIRY, the PRESENCE line's
steps, DEPLOY and STOW. -/

namespace Sys2Proof.Machine

/-! ## Axis values, lever targets, neutrality -/

/-- The axis value of an axis byte, in permille (R60). -/
def axisValue (b : Byte) : Int :=
  10 * clamp (-100) 100 b.toInt

/-- The six axis values of a demand frame (R60). -/
def axisValues (data : List Byte) : Six Int :=
  Six.build fun i => axisValue (byteAt data i.val)

/-- The lever target formed from an axis value (R62). -/
def leverTarget (a : AxisRecord) (v : Int) : Int :=
  let x := match a.sense with
    | .normal => v
    | .inverted => -v
  if x.natAbs ≤ a.deadband then 0
  else x.sign * ((x.natAbs - a.deadband) * a.gain / (1000 - a.deadband) : Nat)

/-- The lever target of a section under an FMT image: 0 when no axis drives it (R62, R64). -/
def sectionTarget (fmt : Image) (v : Six Int) (sec : Fin 6) : Int :=
  match axisOfSection fmt sec with
  | none => 0
  | some i => leverTarget (fmtAxis fmt i) (v.get i)

/-- The six lever targets of a frame; all 0 with the FMT EMPTY (R61, R64). -/
def leverTargets (fmt : Option Image) (v : Six Int) : Six Int :=
  match fmt with
  | none => Six.same 0
  | some ws => Six.build (sectionTarget ws v)

/-- The frame is neutral: every mapped axis lies within its deadband (R63); with the FMT EMPTY every frame is (R61). -/
def isNeutral (fmt : Option Image) (v : Six Int) : Bool :=
  match fmt with
  | none => true
  | some ws =>
    allAxes.all fun i =>
      let a := fmtAxis ws i
      a.drives.isNone || (v.get i).natAbs ≤ a.deadband

/-- The TAKE bit of a demand frame. -/
def takeBit (data : List Byte) : Bool :=
  (byteAt data 6).getLsbD 0

/-- The WEIGH bit of a demand frame. -/
def weighBit (data : List Byte) : Bool :=
  (byteAt data 6).getLsbD 1

/-! ## The record -/

/-- The previous WEIGH of a source. -/
def DemandUnit.prevWeigh (d : DemandUnit) : DemandSource → Bool
  | .cab => d.weighCab
  | .aux => d.weighAux

/-- The Demand Unit with a new previous WEIGH of a source. -/
def DemandUnit.setWeigh (d : DemandUnit) (src : DemandSource) (pressed : Bool) : DemandUnit :=
  match src with
  | .cab => { d with weighCab := pressed }
  | .aux => { d with weighAux := pressed }

/-- What every owner frame writes: the lever targets, owner and owner neutral, and the restarted demand timer (R64). -/
def ownerFrameWrites (src : DemandSource) (data : List Byte) (s : State) : State :=
  let v := axisValues data
  { s with
    demand :=
      { s.demand with
        owner := some { source := src, neutral := isNeutral s.tables.fmt.active v }
        targets := leverTargets s.tables.fmt.active v
        timer := some 150 } }

/-- A neutral owner frame makes a READY crane ACTIVE with the presence level closed, the FMT VALID and the Crane Port
ACTIVE (R75). -/
def becomesActive (data : List Byte) (s : State) : Bool :=
  s.demand.crane == .ready && isNeutral s.tables.fmt.active (axisValues data) && s.demand.presence == .closed &&
    s.tables.fmt.active.isSome && s.crane.port.up

/-- An owner frame that is not a granting frame (R64, R75, R81). -/
def ownerFrame (src : DemandSource) (data : List Byte) (s : State) : State :=
  let t := ownerFrameWrites src data s
  let u := if becomesActive data s then { t with demand := { t.demand with crane := .active } } else t
  let rising := !s.demand.prevWeigh src && weighBit data
  let w := { u with demand := u.demand.setWeigh src (weighBit data) }
  if rising then weighEdge w else w

/-- The arbiter's decision on a TAKE of a source that is not the owner: granted with no owner, or when the owner's most
recent frame was neutral (R65). -/
def takeGranted (owner : Option Ownership) : Bool :=
  match owner with
  | none => true
  | some o => o.neutral

/-- A granted take (R66). -/
def grantTake (src : DemandSource) (data : List Byte) (s : State) : State :=
  let t := raise .owner (activeToReady s)
  ownerFrameWrites src data { t with demand := t.demand.setWeigh src (weighBit data) }

/-- The source is the owner. -/
def isOwner (owner : Option Ownership) (src : DemandSource) : Bool :=
  match owner with
  | none => false
  | some o => o.source == src

/-- An accepted demand frame: an owner frame, a granted take, or a frame that is dropped (R64 to R68). -/
def takeDemandFrame (src : DemandSource) (data : List Byte) (s : State) : State :=
  if isOwner s.demand.owner src then ownerFrame src data s
  else if takeBit data ∧ takeGranted s.demand.owner then grantTake src data s
  else s

/-- DEMAND_FRAME: received by a Cab Port that is up, ignored when it has fewer than 7 bytes, else taken whole (R59). -/
def execDemandFrame (src : DemandSource) (data : List Byte) (s : State) : Host.Outcome State Fault Refusal :=
  whileRunning s <|
    if s.cab.port.up then
      let t := cabReceives s
      if data.length < 7 then t else startCab (takeDemandFrame src data t)
    else s

/-- DEMAND_TIMER_EXPIRY: the owner becomes NONE, the targets 0, an ACTIVE crane READY, and DEMAND_LOST is raised
(R70). -/
def execDemandTimerExpiry (s : State) : Host.Outcome State Fault Refusal :=
  whileRunning s <|
    match s.demand.timer with
    | none => s
    | some _ =>
      startCab <| raise .demandLost <| activeToReady
        { s with demand := { s.demand with owner := none, targets := Six.same 0, timer := none } }

/-! ## The PRESENCE line -/

/-- The other level of a line. -/
def Level.other : Level → Level
  | .closed => .opened
  | .opened => .closed

/-- The filter of a line: it runs its 20 ms while the line stands at another level than the filtered one (R72,
R163). -/
def filterAfter (line level : Level) : Timer :=
  if line = level then none else some 20

/-- PRESENCE_LINE_CHANGE: the line changes level and its filter restarts (R72); the line is outside the part, and
changes also while the part is held in reset (log entry 9). -/
def execPresenceLineChange (s : State) : Host.Outcome State Fault Refusal :=
  let line := s.pins.presenceLine.other
  .next
    { s with
      pins := { s.pins with presenceLine := line }
      demand := { s.demand with presenceFilter := filterAfter line s.demand.presence } }

/-- PRESENCE_OPENS: the filtered level opens, READY and ACTIVE become HELD, and the event is delivered to the Section
Shaper in every crane state (R72, R76, R94). -/
def execPresenceOpens (s : State) : Host.Outcome State Fault Refusal :=
  whileRunning s <|
    if s.demand.presence = .closed ∧ s.pins.presenceLine = .opened then
      let t := { s with demand := { s.demand with presence := .opened, presenceFilter := none } }
      let u := if s.demand.crane = .ready ∨ s.demand.crane = .active then moveCrane .held t else t
      startCab (presenceZeroing u)
    else s

/-- PRESENCE_CLOSES: the filtered level closes, and HELD becomes READY (R72, R77). -/
def execPresenceCloses (s : State) : Host.Outcome State Fault Refusal :=
  whileRunning s <|
    if s.demand.presence = .opened ∧ s.pins.presenceLine = .closed then
      { s with
        demand :=
          { s.demand with
            presence := .closed
            presenceFilter := none
            crane := if s.demand.crane = .held then .ready else s.demand.crane } }
    else s

/-! ## DEPLOY and STOW -/

/-- The decision of DEPLOY (R73). -/
def decideDeploy (_frame : List Byte) (s : State) : State × Reply :=
  if s.demand.crane = .stowed then
    let dest : CraneState := if s.demand.presence = .closed then .ready else .held
    (moveCrane dest s, { status := .ok, data := [byteOf dest.code] })
  else (s, .bare .state)

/-- DEPLOY: a STOWED crane becomes READY or HELD, else STATE (R73). -/
def execDeploy (s : State) : Host.Outcome State Fault Refusal :=
  whileRunning s (serve (some .deploy) false decideDeploy s)

/-- The decision of STOW (R74). -/
def decideStow (_frame : List Byte) (s : State) : State × Reply :=
  (moveCrane .stowed s, { status := .ok, data := [byteOf CraneState.stowed.code] })

/-- STOW: the crane becomes STOWED from every state (R74). -/
def execStow (s : State) : Host.Outcome State Fault Refusal :=
  whileRunning s (serve (some .stow) false decideStow s)

end Sys2Proof.Machine
end

