-- ==== Sys2Proof/Machine/Validation.lean ====
section
/-! DEFINITION. Field validation of a shadow image at commit, word by word in ascending index (R153 to R158). -/

namespace Sys2Proof.Machine

/-- A word lies in a range, both ends included. -/
def inRange (lo hi n : Nat) : Bool :=
  lo ≤ n && n ≤ hi

/-- The words of an FMT image at offset `k` of the axes before axis `i`. -/
def earlierAxisWords (ws : Image) (i k : Nat) : List Nat :=
  (List.range i).map fun j => fieldAt ws (1 + 9 * j + k)

/-- Word `k` of axis `i` (0..5) of an FMT shadow passes: its range in 8.2 and the conditions of R154. -/
def fmtAxisWordOk (ws : Image) (i k : Nat) : Bool :=
  let n := fieldAt ws (1 + 9 * i + k)
  match k with
  | 0 => n == 65535 || (n ≤ 5 && !(earlierAxisWords ws i 0).contains n)
  | 1 => n ≤ 1
  | 2 => n ≤ 300
  | 3 => n ≤ 1000
  | 4 => inRange 1 1000 n
  | 5 => inRange 1 1000 n
  | 6 => n ≤ 50
  | 7 => n % 256 ≤ 2 && n / 256 ≤ 2
  | _ =>
    n ≤ 2 && (n == 0 || (fieldAt ws (1 + 9 * i) != 65535 && !(earlierAxisWords ws i 8).contains n))

/-- A word of an FMT shadow passes (R154). -/
def fmtWordOk (ws : Image) (j : Nat) : Bool :=
  if j = 0 then inRange 2 50 (fieldAt ws 0) else fmtAxisWordOk ws ((j - 1) / 9) ((j - 1) % 9)

/-- A word of a CAL shadow passes (R155). A window low above 255 fails at its own word, which 8.2 gives the range 0..255
(R153), and not at the window high's, where R155 puts the check of both. DEDUCED, log entry 34. -/
def calWordOk (ws : Image) (j : Nat) : Bool :=
  let n := fieldAt ws j
  match j % 6 with
  | 0 => n ≤ 3839
  | 1 => inRange (fieldAt ws (j - 1) + 256) 4095 n
  | 2 => true
  | 3 => signedFieldAt ws (j - 1) < signedFieldAt ws j
  | 4 => n ≤ 255
  | _ => inRange (fieldAt ws (j - 1)) 255 n

/-- A word of a BMT shadow passes (R156). -/
def bmtWordOk (ws : Image) (j : Nat) : Bool :=
  let n := fieldAt ws j
  let extension := fieldAt ws 5 != 0
  match j with
  | 0 => n ≤ 20000
  | 1 => inRange 1 20000 n
  | 2 => inRange 1 20000 n
  | 3 => inRange 1 65535 n
  | 4 => inRange 1 65535 n
  | 5 => n ≤ 20000
  | 6 => n ≤ 30000
  | 7 => n ≤ 20000
  | 8 => n ≤ 30000
  | 9 => n ≤ 20000
  | 10 => n ≤ 30000 && (extension || n == 0)
  | 11 => n ≤ 20000 && (extension || n == 0)
  | 12 => n ≤ 30000
  | _ => inRange 50 2000 n

/-- A word of a sector record of an RCT shadow passes: sector `s`, word `k` (R157). -/
def rctSectorWordOk (ws : Image) (s k : Nat) : Bool :=
  let n := fieldAt ws (6 + 4 * s + k)
  match k with
  | 0 =>
    if s = 0 then n == 0
    else if s < fieldAt ws 0 then fieldAt ws (6 + 4 * (s - 1)) < n
    else true
  | 1 => n ≤ 1
  | 2 => n ≤ 1
  | _ => n ≤ 1000

/-- A word of an RCT shadow passes (R157). -/
def rctWordOk (ws : Image) (j : Nat) : Bool :=
  let n := fieldAt ws j
  match j with
  | 0 => inRange 1 8 n
  | 1 => inRange 500 999 n
  | 2 => inRange 900 1200 n && fieldAt ws 1 < n
  | 3 => fieldAt ws 1 ≤ n && n < fieldAt ws 2
  | 4 => inRange 100 1000 n
  | 5 => n ≤ 300
  | _ => if j < 38 then rctSectorWordOk ws ((j - 6) / 4) ((j - 6) % 4) else n ≤ 30000

/-- A word of a WPT shadow passes (R158). -/
def wptWordOk (ws : Image) (j : Nat) : Bool :=
  let n := fieldAt ws j
  match j with
  | 0 => n ≤ 2
  | 1 => n ≤ 1
  | 2 => n ≤ 200
  | 3 => inRange 4 32 n
  | 4 => inRange 1 500 n
  | 5 => n ≤ 5
  | 6 => inRange 50 500 n
  | 7 => inRange 1 999 n
  | 8 => inRange (fieldAt ws 7 + 1) 1000 n
  | _ => inRange 100 1000 n

/-- A word of a shadow of a kind passes field validation. -/
def wordOk (k : Kind) (ws : Image) (j : Nat) : Bool :=
  match k with
  | .fmt => fmtWordOk ws j
  | .cal => calWordOk ws j
  | .bmt => bmtWordOk ws j
  | .rct => rctWordOk ws j
  | .wpt => wptWordOk ws j

/-- The index of the first word that fails, in ascending index (R153). -/
def firstBadWord (k : Kind) (ws : Image) : Option Nat :=
  (List.range k.words).find? fun j => !wordOk k ws j

/-- An image of a kind that passes field validation. -/
def imageOk (k : Kind) (ws : Image) : Bool :=
  ws.length == k.words && (firstBadWord k ws).isNone

end Sys2Proof.Machine
end

