-- ==== Sys2Proof/Machine/Tables.lean ====
section
/-! DEFINITION. The Table Store's images, cursor and commit (R144 to R161): the meanings of OPEN_TABLE, WRITE_WORDS,
READ_WORDS, COMMIT and DISCARD. -/

namespace Sys2Proof.Machine

/-- A flag of a state as a data byte. -/
def flagByte (b : Bool) : Byte :=
  if b then 1 else 0

/-! ## Editing -/

/-- The decision of OPEN_TABLE (R147). -/
def decideOpenTable (frame : List Byte) (s : State) : State × Reply :=
  match kindOfCode (byteAt frame 1).toNat with
  | none => (s, .bare .range)
  | some k =>
    let start := pairAt frame 2
    if start < k.words then
      let x := s.tables.kind k
      let y := if x.dirty then x else x.clean k
      let t := { s.tables.setKind k y with cursorKind := k, cursorIndex := start }
      ({ s with tables := t },
        { status := .ok
          data := byteOf k.code :: bytes2 start ++ [flagByte x.active.isSome, flagByte x.dirty] })
    else (s, .bare .range)

/-- OPEN_TABLE: the cursor is set, and a CLEAN shadow refreshed (R147). -/
def execOpenTable (s : State) : Host.Outcome State Fault Refusal :=
  whileRunning s (serve (some .openTable) false decideOpenTable s)

/-- The words that a WRITE_WORDS frame carries (R148). -/
def frameWords (frame : List Byte) (count : Nat) : List Word :=
  [wordAt frame 2, wordAt frame 4, wordAt frame 6].take count

/-- Words written in turn into an image from an index on; those that would fall at or beyond its end are dropped
(R148). -/
def writeFrom (ws : Image) (index : Nat) : List Word → Image
  | [] => ws
  | w :: rest => writeFrom (ws.set index w) (index + 1) rest

/-- How many of `count` words fit between an index and the word count (R148, R149). -/
def wordsThatFit (limit index count : Nat) : Nat :=
  min count (limit - index)

/-- The decision of WRITE_WORDS (R148). -/
def decideWriteWords (frame : List Byte) (s : State) : State × Reply :=
  let count := (byteAt frame 1).toNat
  if inRange 1 3 count then
    let k := s.tables.cursorKind
    let x := s.tables.kind k
    let index := s.tables.cursorIndex
    let n := wordsThatFit k.words index count
    let y := { x with shadow := writeFrom x.shadow index (frameWords frame n), dirty := x.dirty || n != 0 }
    let t := { s.tables.setKind k y with cursorIndex := index + n }
    ({ s with tables := t },
      { status := if n = count then .ok else .range
        data := byteOf n :: bytes2 (index + n) ++ [flagByte y.dirty] })
  else (s, .bare .range)

/-- WRITE_WORDS: up to three words are written into the shadow of the cursor's kind (R148). -/
def execWriteWords (s : State) : Host.Outcome State Fault Refusal :=
  whileRunning s (serve (some .writeWords) false decideWriteWords s)

/-- The data bytes of the words read (R149). -/
def wordsData (ws : List Word) : List Byte :=
  ws.flatMap fun w => bytes2 w.toNat

/-- The reading of `count` words of an image at the cursor (R149). -/
def readAtCursor (ws : Image) (count : Nat) (s : State) : State × Reply :=
  let limit := s.tables.cursorKind.words
  let index := s.tables.cursorIndex
  if limit ≤ index then (s, .bare .range)
  else
    let n := wordsThatFit limit index count
    ({ s with tables := { s.tables with cursorIndex := index + n } },
      { status := if n = count then .ok else .range, data := wordsData ((ws.drop index).take n) })

/-- The decision of READ_WORDS: the first case that holds (R149). With the cursor at the end of an EMPTY kind and bank
0, R149's order of cases says NO_TABLE and R146 says that every READ_WORDS at the end is refused RANGE; the model
follows R149 (log entry 30). -/
def decideReadWords (frame : List Byte) (s : State) : State × Reply :=
  let bank := (byteAt frame 1).toNat
  let count := (byteAt frame 2).toNat
  let x := s.tables.kind s.tables.cursorKind
  if 1 < bank ∨ inRange 1 3 count = false then (s, .bare .range)
  else if bank = 0 then
    match x.active with
    | none => (s, .bare .noTable)
    | some ws => readAtCursor ws count s
  else readAtCursor x.shadow count s

/-- READ_WORDS: up to three words of the active image or the shadow are read at the cursor (R149). -/
def execReadWords (s : State) : Host.Outcome State Fault Refusal :=
  whileRunning s (serve (some .readWords) false decideReadWords s)

/-- The decision of DISCARD (R150). -/
def decideDiscard (frame : List Byte) (s : State) : State × Reply :=
  match kindOfCode (byteAt frame 1).toNat with
  | none => (s, .bare .range)
  | some k =>
    let x := s.tables.kind k
    ({ s with tables := s.tables.setKind k (x.clean k) },
      { status := .ok, data := [byteOf k.code, flagByte x.active.isSome] })

/-- DISCARD: a kind's shadow becomes CLEAN again (R150). -/
def execDiscard (s : State) : Host.Outcome State Fault Refusal :=
  whileRunning s (serve (some .discard) false decideDiscard s)

/-! ## Commit -/

/-- The kind is in the protect set: bit k − 1 stands for the kind of code k (R165). -/
def isProtected (set : BitVec 5) (k : Kind) : Bool :=
  set.getLsbD (k.code - 1)

/-- Check 3 of a COMMIT: protection allows a commit of the kind (R164). -/
def protectionAllows (t : TableStore) (k : Kind) : Bool :=
  if isProtected t.protectSet k then
    if t.held then false
    else
      match t.mode with
      | .fixed => false
      | .keyed => t.keyLevel == .closed
      | .isOpen => true
  else true

/-- The five checks of a COMMIT of a kind whose sender gave a word sum: the refusal of the first check that fails, or
none when all pass (R151). Check 1 is made where the kind is read. -/
def commitRefusal (t : TableStore) (k : Kind) (given : Nat) : Option Reply :=
  let ws := (t.kind k).shadow
  if t.persist ≠ .idle then some (.bare .busy)
  else if protectionAllows t k = false then some (.bare .locked)
  else if wordSum ws ≠ given then some { status := .checksum, data := bytes2 (wordSum ws) }
  else
    match firstBadWord k ws with
    | some j => some { status := .field, data := bytes2 j }
    | none => none

/-- The acceptance in the Table Store: the active image becomes VALID with the shadow's words, and the shadow CLEAN
with the same words (R159). -/
def TableStore.accept (t : TableStore) (k : Kind) : TableStore :=
  let ws := (t.kind k).shadow
  t.setKind k { active := some ws, shadow := ws, dirty := false }

/-- The acceptance of an FMT in the using blocks: targets 0 and an ACTIVE crane to READY (R79), previous GRAPPLE absent
(R126), the refresh timer restarted and a frame requested (R103). -/
def fmtAccepted (s : State) : State :=
  let t := activeToReady { s with demand := { s.demand with targets := Six.same 0 } }
  requestValve (restartRefresh { t with weigh := { t.weigh with prevGrapple := none } })

/-- The acceptance of a WPT in the Weigh Unit: a running cycle is aborted with cause TABLE, and an ARMED unit returns
to IDLE (R125, R126). -/
def wptAccepted (s : State) : State :=
  if s.weigh.phase = .armed then { s with weigh := { s.weigh with phase := .idle } } else abortCycle .table s

/-- The hand-over of an acceptance to the using blocks at that moment (R160). The Scan Unit, the LAU, the Limiter and
the Section Shaper read the new image at their next unit of work. -/
def acceptedBy (k : Kind) (s : State) : State :=
  match k with
  | .fmt => fmtAccepted s
  | .cal => abortCycle .table s
  | .bmt => abortCycle .table s
  | .rct => s
  | .wpt => wptAccepted s

/-- The decision of COMMIT (R151, R159, R160, R161). -/
def decideCommit (frame : List Byte) (s : State) : State × Reply :=
  match kindOfCode (byteAt frame 1).toNat with
  | none => (s, .bare .range)
  | some k =>
    match commitRefusal s.tables k (pairAt frame 2) with
    | some refusal => (s, refusal)
    | none =>
      (acceptedBy k { s with tables := s.tables.accept k },
        { status := .ok, data := byteOf k.code :: bytes2 (wordSum (s.tables.kind k).shadow) })

/-- COMMIT: after its checks the shadow becomes the active image (R151). -/
def execCommit (s : State) : Host.Outcome State Fault Refusal :=
  whileRunning s (serve (some .commit) false decideCommit s)

end Sys2Proof.Machine
end

