-- ==== Sys2Proof/Machine/Protection.lean ====
section
/-! DEFINITION. Protection and the store (R163 to R172): the meanings of SERVICE_KEY_LINE_CHANGE, KEY_LEVEL_CHANGE,
SET_PROTECTION, PERSIST and PERSIST_ITEM_END, and what start-up loading reads from the store. -/

namespace Sys2Proof.Machine

/-! ## The key -/

/-- SERVICE_KEY_LINE_CHANGE: the line changes level and its filter restarts (R163); the line is outside the part, and
changes also while the part is held in reset (log entry 9). -/
def execServiceKeyLineChange (s : State) : Host.Outcome State Fault Refusal :=
  let line := s.pins.serviceKeyLine.other
  .next
    { s with
      pins := { s.pins with serviceKeyLine := line }
      tables := { s.tables with keyFilter := filterAfter line s.tables.keyLevel } }

/-- KEY_LEVEL_CHANGE: the line has stood at its new level for 20 ms, and the key level changes (R163). -/
def execKeyLevelChange (s : State) : Host.Outcome State Fault Refusal :=
  whileRunning s <|
    if s.tables.keyLevel = s.pins.serviceKeyLine then s
    else { s with tables := { s.tables with keyLevel := s.pins.serviceKeyLine, keyFilter := none } }

/-! ## SET_PROTECTION -/

/-- The cases in which a SET_PROTECTION is LOCKED (R165). -/
def protectionLocked (t : TableStore) (modeByte : Nat) : Bool :=
  t.held || t.mode == .fixed || (t.mode == .keyed && t.keyLevel == .opened) ||
    (modeByte == 2 && t.keyLevel == .opened)

/-- The data of a SET_PROTECTION response: the setting as it stands after the request (R165). -/
def protectionData (t : TableStore) : List Byte :=
  [byteOf t.mode.code, byteOf t.protectSet.toNat, flagByte t.held, flagByte (t.keyLevel == .closed)]

/-- The setting after an accepted SET_PROTECTION: the held flag with mode byte 3, else the mode and set (R165). -/
def TableStore.protect (t : TableStore) (modeByte : Nat) (setByte : Byte) : TableStore :=
  match protectionMode modeByte with
  | some m => { t with mode := m, protectSet := setByte.truncate 5 }
  | none => { t with held := true }

/-- The decision of SET_PROTECTION: the first case that holds (R165). -/
def decideSetProtection (frame : List Byte) (s : State) : State × Reply :=
  let modeByte := (byteAt frame 1).toNat
  let setByte := byteAt frame 2
  if 3 < modeByte ∨ 32 ≤ setByte.toNat then (s, { status := .range, data := protectionData s.tables })
  else if protectionLocked s.tables modeByte then (s, { status := .locked, data := protectionData s.tables })
  else
    let t := s.tables.protect modeByte setByte
    ({ s with tables := t }, { status := .ok, data := protectionData t })

/-- SET_PROTECTION: the mode and set or the held flag, or RANGE or LOCKED (R165). -/
def execSetProtection (s : State) : Host.Outcome State Fault Refusal :=
  whileRunning s (serve (some .setProtection) false decideSetProtection s)

/-! ## PERSIST -/

/-- The item after an item (R167). -/
def PersistItem.after : PersistItem → Option PersistItem
  | .wpt => some .fmt
  | .fmt => some .cal
  | .cal => some .bmt
  | .bmt => some .rct
  | .rct => some .settings
  | .settings => none

/-- Words with their sum, as the store writes an item (R168). -/
def withSum (ws : Image) : Stored :=
  .image ws (BitVec.ofNat 16 (wordSum ws))

/-- An active image as the store writes it; an EMPTY one is written as the empty marker (R168). -/
def storedImage (active : Option Image) : Stored :=
  match active with
  | some ws => withSum ws
  | none => .emptyMarker

/-- The settings record as the store writes it: mode, protect set, tare offset, notice mask, two words of 0 (R168). -/
def settingsRecord (s : State) : Stored :=
  withSum
    [BitVec.ofNat 16 s.tables.mode.code, s.tables.protectSet.setWidth 16, BitVec.ofInt 16 s.weigh.tare,
     s.mgmt.mask.setWidth 16, 0, 0]

/-- The content of an item as it stands at the start of its write (R167). -/
def itemContent (s : State) : PersistItem → Stored
  | .wpt => storedImage s.tables.wpt.active
  | .fmt => storedImage s.tables.fmt.active
  | .cal => storedImage s.tables.cal.active
  | .bmt => storedImage s.tables.bmt.active
  | .rct => storedImage s.tables.rct.active
  | .settings => settingsRecord s

/-- The store with an item's new contents. -/
def StoreContents.setItem (x : StoreContents) (item : PersistItem) (c : Stored) : StoreContents :=
  match item with
  | .wpt => { x with wpt := c }
  | .fmt => { x with fmt := c }
  | .cal => { x with cal := c }
  | .bmt => { x with bmt := c }
  | .rct => { x with rct := c }
  | .settings => { x with settings := c }

/-- The write of an item starts (R167). -/
def startItem (item : PersistItem) (s : State) : State :=
  { s with tables := { s.tables with persist := .writing item (itemContent s item) } }

/-- The decision of PERSIST: BUSY while WRITING, else the store begins to write (R167). -/
def decidePersist (_frame : List Byte) (s : State) : State × Reply :=
  match s.tables.persist with
  | .writing _ _ => (s, .bare .busy)
  | .idle =>
    (startItem .wpt { s with tables := { s.tables with persistResult := .none, failedItems := 0 } }, .bare .ok)

/-- PERSIST: the store begins to write the six items, or BUSY (R167). -/
def execPersist (s : State) : Host.Outcome State Fault Refusal :=
  whileRunning s (serve (some .persist) false decidePersist s)

/-- The set of failed items with an item added (R168); bit k − 1 is for item k. -/
def failedWith (set : BitVec 6) (item : PersistItem) : BitVec 6 :=
  set ||| BitVec.twoPow 6 (item.number - 1)

/-- The write and read-back of an item end: the store holds what the read-back found, and an item that reads back
unequal joins the failed items (R168). -/
def endItem (item : PersistItem) (taken found : Stored) (t : TableStore) : TableStore :=
  { t with
    stored := t.stored.setItem item found
    failedItems := if found = taken then t.failedItems else failedWith t.failedItems item }

/-- The completion of a PERSIST: IDLE, with the result (R168). -/
def TableStore.completePersist (t : TableStore) : TableStore :=
  { t with persist := .idle, persistResult := if t.failedItems = 0 then .ok else .failed }

/-- PERSIST_ITEM_END, with what the read-back finds (`none`: what was meant to be written): the next item's write starts
with its content taken now, and the end of item 6 completes the PERSIST and raises PERSIST (R167, R168). -/
def execPersistItemEnd (found : Option Stored) (s : State) : Host.Outcome State Fault Refusal :=
  whileRunning s <|
    match s.tables.persist with
    | .idle => s
    | .writing item taken =>
      let t := { s with tables := endItem item taken (found.getD taken) s.tables }
      match item.after with
      | some next => startItem next t
      | none => startCab (raise .persist { t with tables := t.tables.completePersist })

/-- The supply is lost during a PERSIST: it ends at once, the item under way is left with a sum that does not check,
and the others keep their contents (R169). -/
def TableStore.losePersist (t : TableStore) : TableStore :=
  match t.persist with
  | .idle => t
  | .writing item _ => { t with persist := .idle, stored := t.stored.setItem item .spoilt }

/-! ## Start-up loading -/

/-- The words of an item of `n` words whose stored sum checks (R170). -/
def checkedWords (n : Nat) (x : Stored) : Option Image :=
  match x with
  | .image ws sum => if ws.length = n ∧ wordSum ws = sum.toNat then some ws else none
  | .emptyMarker => none
  | .spoilt => none

/-- The images of a kind after start-up loading: VALID with the stored words when the sum checks, EMPTY otherwise, and
a CLEAN shadow (R162, R170). -/
def loadKind (k : Kind) (x : Stored) : KindTable :=
  let active := checkedWords k.words x
  { active := active, shadow := cleanWords k active, dirty := false }

/-- What a settings record holds (R168). -/
structure Settings where
  mode : ProtectionMode
  protectSet : BitVec 5
  tare : Int
  mask : BitVec 12
deriving DecidableEq, Repr

/-- The settings with an invalid record: OPEN, the default set, tare 0, every flag unmasked (R171). -/
def Settings.default : Settings :=
  { mode := .isOpen, protectSet := 0x0E, tare := 0, mask := 0 }

/-- The settings of six words, if they are valid (R171). -/
def settingsOfWords (ws : Image) : Option Settings :=
  match protectionMode (fieldAt ws 0) with
  | none => none
  | some mode =>
    let tare := signedFieldAt ws 2
    if fieldAt ws 1 < 32 ∧ fieldAt ws 3 < 4096 ∧ -500 ≤ tare ∧ tare ≤ 500 then
      some
        { mode := mode, protectSet := BitVec.ofNat 5 (fieldAt ws 1), tare := tare,
          mask := BitVec.ofNat 12 (fieldAt ws 3) }
    else none

/-- The settings that start-up reads from the settings record (R171). -/
def loadSettings (x : Stored) : Settings :=
  ((checkedWords 6 x).bind settingsOfWords).getD .default

end Sys2Proof.Machine
end

