-- ==== Sys2Proof/Machine/LimiterUnit.lean ====
section
/-! DEFINITION. The Limiter's evaluation of a load result (R48 to R55). -/

namespace Sys2Proof.Machine

/-- The row of a table of R50 to R52 that U falls in, with LIMIT from a threshold on. Where the threshold lies below
warn_at, which only a loaded image allows (R157, R170), the rows of LIMIT and CLEAR both hold for a U between the two;
which of them governs is a free choice (log entry 32). -/
def limiterRow (rct : Image) (limitFrom u : Nat) : LimiterState :=
  if limitFrom ≤ u then
    if rctWarnAt rct ≤ u ∨ Config.limitGoverns rct limitFrom u = true then .limit else .clear
  else if rctWarnAt rct ≤ u then .warn
  else .clear

/-- The next state from CLEAR, WARN and FAULT, by U alone (R50, R51). -/
def classify (rct : Image) (u : Nat) : LimiterState :=
  limiterRow rct (rctLimitAt rct) u

/-- The next state from LIMIT, with its hysteresis (R52). -/
def classifyFromLimit (rct : Image) (u : Nat) : LimiterState :=
  limiterRow rct (rctReleaseAt rct) u

/-- The next state of an evaluation whose result carries a U, under the thresholds of the RCT fixed for its scan. -/
def nextLimiterState (rct : Image) (u : Nat) : LimiterState → LimiterState
  | .limit => classifyFromLimit rct u
  | .clear => classify rct u
  | .warn => classify rct u
  | .fault _ => classify rct u

/-- One evaluation of the Limiter (R48, R49, R53). `rct` is the RCT fixed for the result's scan. -/
def Limiter.evaluate (l : Limiter) (rct : Option Image) (r : LoadResult) : Limiter :=
  match r with
  | .invalid cause _ => { state := .fault cause.toFault, u := 0 }
  | .valid v =>
    match v.rating, rct with
    | some q, some ws => { state := nextLimiterState ws q.utilisation l.state, u := q.utilisation }
    | _, _ => { state := .fault .noRating, u := 0 }

/-- The flag of a state entered (R54). -/
def LimiterState.entryFlag : LimiterState → NoticeFlag
  | .clear => .cleared
  | .warn => .warn
  | .limit => .limit
  | .fault _ => .fault

/-- The flag that an evaluation raises: that of the state entered, and none when the state is left as it was; a change
of cause within FAULT is no entry (R49, R54). -/
def evaluationFlag (before after : LimiterState) : Option NoticeFlag :=
  if before.code = after.code then none else some after.entryFlag

/-- The Limiter takes in a load result (R48). -/
def limiterTakes (rct : Option Image) (r : LoadResult) (s : State) : State :=
  let after := s.limiter.evaluate rct r
  raiseAny (evaluationFlag s.limiter.state after.state) { s with limiter := after }

end Sys2Proof.Machine
end

