-- ==== Sys2Proof/Machine/LoadArith.lean ====
section
/-! DEFINITION. The Load Arithmetic Unit: one load result from one scan record (R19 to R47). -/

namespace Sys2Proof.Machine

/-- The net lift force F, in daN (R23). -/
def netForce (pPist pRod : Int) (aPist aRod : Nat) : Int :=
  Int.tdiv (pPist * aPist - pRod * aRod) 1000

/-- The offset of the lever lookup, α clamped to −400..+880 and counted from −400 (R24). -/
def leverOffset (alpha : Int) : Nat :=
  (clamp (-400) 880 alpha + 400).toNat

/-- The lever arm r, in mm, by the lever curve of a BMT image (R24). -/
def leverArm (bmt : Image) (alpha : Int) : Int :=
  let i := leverOffset alpha / 40
  let frac := leverOffset alpha % 40
  if i = 32 then bmtLever bmt 32
  else bmtLever bmt i + Int.tdiv ((bmtLever bmt (i + 1) - bmtLever bmt i) * frac) 40

/-- The bound of the moments, in daN·mm (R25, R29). -/
def momentBound : Nat :=
  2000000000

/-- The lift moment M_lift, in daN·mm (R25). -/
def liftMomentOf (force lever : Int) : Int :=
  clamp (-momentBound) momentBound (force * lever)

/-- The horizontal projection h(L, a), in mm (R27). -/
def projection (length : Nat) (a : Int) : Nat :=
  length * cosineAt a / 16384

/-- The tip arm a_t, in mm (R28). -/
def tipArmOf (b : BoomMembers) (alpha beta : Int) (e : Nat) : Nat :=
  projection b.l1 alpha + projection (b.l2 + e) beta

/-- The dead moment M_dead, in daN·mm; the telescope member's term is formed with an extension member only (R29,
R30). -/
def deadMomentOf (b : BoomMembers) (alpha beta : Int) (e : Nat) : Nat :=
  let x1 := projection b.l1 alpha
  let telescope := if 0 < b.eMax then b.w3 * (x1 + projection (b.d3 + e) beta) else 0
  min momentBound
    (b.w1 * projection b.d1 alpha + b.w2 * (x1 + projection b.d2 beta) + telescope + b.wg * tipArmOf b alpha beta e)

/-- The payload weight W, in daN; absent when the result is reach short (R31, R32). -/
def weightOf (liftMoment : Int) (deadMoment tipArm : Nat) : Option Int :=
  if tipArm < 500 then none
  else some (clamp (-32768) 32767 (Int.tdiv (liftMoment - deadMoment) tipArm))

/-- The reach band (R33). -/
def bandOf (reach : Nat) : Nat :=
  min (reach / 250) 40

/-- The sector chosen from the slew angle: the last sector within the count whose start is at or below it (R34). -/
def sectorOf (rct : Image) (slew : Nat) : Nat :=
  match ((List.range (rctSectorCount rct)).filter fun s => rctStart rct s ≤ slew).getLast? with
  | some s => s
  | none => (Config.sectorUnchosen rct slew).val

/-- The tilt toward load t under a sector, from the slew record's pitch and roll (R42). -/
def tiltToward (rct : Image) (sector : Nat) (slew : SlewRecord) : Nat :=
  let v := match rctTiltAxis rct sector with
    | .pitch => slew.pitch
    | .roll => slew.roll
  let signed := match rctTiltSign rct sector with
    | .plus => v
    | .minus => -v
  (clamp 0 300 signed).toNat

/-- The derate factor at a tilt, in permille; a factor that would be negative is 0 (R43). -/
def derateFactor (k t : Nat) : Nat :=
  1000 - k * t / 10

/-- The effective rating of a sector at a band and tilt, in daN (R44). -/
def effectiveRating (rct : Image) (sector band tilt : Nat) : Nat :=
  rctCapacity rct sector band * derateFactor (rctDerate rct sector) tilt / 1000

/-- The least effective rating over the sectors within the count, at the stale tilt (R45). -/
def leastRating (rct : Image) (band tilt : Nat) : Nat :=
  (List.range (rctSectorCount rct - 1)).foldl (fun m s => min m (effectiveRating rct (s + 1) band tilt))
    (effectiveRating rct 0 band tilt)

/-- The utilisation U, in permille; the first case that holds decides it (R46). -/
def utilisationOf (weight : Option Int) (effective : Nat) : Nat :=
  match weight with
  | none => 0
  | some w =>
    if effective = 0 then 1999
    else if w ≤ 0 then 0
    else min (1000 * w.toNat / effective) 1999

/-- The rating stages of a VALID result under an RCT image (R41 to R47). -/
def ratingOf (rct : Image) (slew : SlewRecord) (band : Nat) (weight : Option Int) : Rating :=
  if slew.stale then
    let t := rctStaleTilt rct
    let wr := leastRating rct band t
    { sector := 255, tilt := t, effective := wr, utilisation := utilisationOf weight wr }
  else
    let sec := sectorOf rct slew.slew
    let t := tiltToward rct sec slew
    let wr := effectiveRating rct sec band t
    { sector := sec, tilt := t, effective := wr, utilisation := utilisationOf weight wr }

/-- The stages of a VALID result, from the values as used (R22 to R36). -/
def validLoad (v : Engineering) (bmt : Image) (rct : Option Image) (slew : SlewRecord) : ValidLoad :=
  let b := bmtMembers bmt
  let pPist := clamp 0 4000 v.pPiston
  let pRod := clamp 0 4000 v.pRod
  let e := (clamp 0 b.eMax v.ext).toNat
  let force := netForce pPist pRod b.aPist b.aRod
  let lever := leverArm bmt v.angBoom
  let lift := liftMomentOf force lever
  let tip := tipArmOf b v.angBoom v.angJib e
  let dead := deadMomentOf b v.angBoom v.angJib e
  let w := weightOf lift dead tip
  let reach := b.lp + tip
  let band := bandOf reach
  { pPist := pPist, pRod := pRod, alpha := v.angBoom, beta := v.angJib, ext := e
    force := force, lever := lever, liftMoment := lift
    boomArm := projection b.l1 v.angBoom, tipArm := tip, deadMoment := dead
    weight := w, reach := reach, band := band
    rating := rct.map fun ws => ratingOf ws slew band w
    slewStale := slew.stale }

/-- The sensor conditions of R21: SUPPLY faulted, one of channels 0..3 invalid, or EXT invalid with an extension
member. -/
def sensorCondition (r : ScanRecord) (bmt : Image) : Bool :=
  r.supplyFaulted || !r.valid.s0 || !r.valid.s1 || !r.valid.s2 || !r.valid.s3 ||
    (!r.valid.s4 && 0 < (bmtMembers bmt).eMax)

/-- The load result of a scan record (R19, R21): INVALID with NO_GEOMETRY when the CAL or the fixed BMT is EMPTY,
else INVALID with SENSOR when a sensor condition holds, else VALID. -/
def loadResultOf (r : ScanRecord) : LoadResult :=
  match r.values, r.bmt with
  | some v, some bmt =>
    if sensorCondition r bmt then .invalid .sensor r.slew.stale
    else .valid (validLoad v bmt r.rct r.slew)
  | _, _ => .invalid .noGeometry r.slew.stale

end Sys2Proof.Machine
end

