-- ==== Sys2Proof/Machine/Scan.lean ====
section
/-! DEFINITION. The Scan Unit (R1 to R18): the meanings of SCAN_TIMER_EXPIRY, SCAN_COMPLETION, SLEW_TILT_FRAME and
SLEW_TIMER_EXPIRY. -/

namespace Sys2Proof.Machine

/-! ## Channels -/

/-- The quotient of R4, truncated toward zero. A span of 0 is possible only in an image that no commit validated; its
quotient is free (log entry 14). -/
def calQuotient (product span : Int) : Int :=
  if span = 0 then Config.zeroSpanQuotient product else Int.tdiv product span

/-- The engineering value of a count by a calibration record (R4). -/
def engineeringValue (k : CalRecord) (count : BitVec 12) : Int :=
  clamp k.lo k.hi (k.lo + calQuotient ((count.toNat - k.zero) * (k.hi - k.lo)) (k.full - k.zero))

/-- The channel is out for the scan (R6). -/
def isOut (k : CalRecord) (count : BitVec 12) : Bool :=
  count.toNat / 16 < k.windowLow || k.windowHigh < count.toNat / 16

/-- The window counting of a channel that is out or in for the scan (R7, R8). -/
def windowCount (out : Bool) (c : Channel) : Channel :=
  if out then
    { c with outCount := min (c.outCount + 1) 3, inCount := 0, faulted := c.faulted || c.outCount == 2 }
  else
    { c with outCount := 0, inCount := min (c.inCount + 1) 3, faulted := c.faulted && c.inCount != 2 }

/-- A channel record at scan completion under the CAL fixed for the scan (R4 to R9). With the CAL EMPTY the count is
written, the value becomes absent, and the window counting is held (R5). -/
def channelAfter (cal : Option Image) (i : Fin 6) (count : BitVec 12) (c : Channel) : Channel :=
  match cal with
  | none => { c with count := count, value := none }
  | some ws =>
    let k := calRecord ws i
    { windowCount (isOut k count) c with count := count, value := some (engineeringValue k count) }

/-- The channel records at scan completion. -/
def channelsAfter (cal : Option Image) (counts : Six (BitVec 12)) (cs : Six Channel) : Six Channel :=
  Six.build fun i => channelAfter cal i (counts.get i) (cs.get i)

/-- Some channel became faulted or was cleared at this scan (R7 to R9). -/
def faultsChanged (before after : Six Channel) : Bool :=
  allAxes.any fun i => (before.get i).faulted != (after.get i).faulted

/-- The validity marks of the hand-over: a fault of SUPPLY is a fault of every channel (R10). -/
def channelValid (cs : Six Channel) : Six Bool :=
  Six.build fun i => !(cs.get i).faulted && !cs.s5.faulted

/-- The engineering values handed over (R11). -/
def engineeringOf (cal : Option Image) (counts : Six (BitVec 12)) : Option Engineering :=
  cal.map fun ws =>
    { pPiston := engineeringValue (calRecord ws 0) counts.s0
      pRod := engineeringValue (calRecord ws 1) counts.s1
      angBoom := engineeringValue (calRecord ws 2) counts.s2
      angJib := engineeringValue (calRecord ws 3) counts.s3
      ext := engineeringValue (calRecord ws 4) counts.s4 }

/-- The scan record of a completion (R11). -/
def scanRecordOf (fixed : FixedTables) (counts : Six (BitVec 12)) (cs : Six Channel) (slew : SlewRecord) :
    ScanRecord :=
  { values := engineeringOf fixed.cal counts
    valid := channelValid cs
    supplyFaulted := cs.s5.faulted
    bmt := fixed.bmt
    rct := fixed.rct
    slew := slew }

/-! ## Scans -/

/-- SCAN_TIMER_EXPIRY: the timer restarts, and a scan starts when none is in progress, fixing the active CAL, BMT and
RCT (R1, R2). -/
def execScanTimerExpiry (s : State) : Host.Outcome State Fault Refusal :=
  whileRunning s
    { s with
      scan :=
        { s.scan with
          scanTimer := some 10
          inProgress :=
            match s.scan.inProgress with
            | some fixed => some fixed
            | none => some { cal := s.tables.cal.active, bmt := s.tables.bmt.active, rct := s.tables.rct.active } } }

/-- The LAU takes a scan record: the new result replaces the previous one and is offered to the Limiter and to the
Weigh Unit (R19). -/
def lauTakes (r : ScanRecord) (s : State) : State :=
  let result := loadResultOf r
  weighTakes result (limiterTakes r.rct result { s with lau := some result })

/-- A scan completes with the tables it fixed and the six counts: the channel records are written together, SENSOR is
raised once for any change of a fault, and the scan record is handed over (R9, R11). -/
def completeScan (fixed : FixedTables) (counts : Six (BitVec 12)) (s : State) : State :=
  let cs := channelsAfter fixed.cal counts s.scan.channels
  let t := { s with scan := { s.scan with channels := cs, inProgress := none } }
  lauTakes (scanRecordOf fixed counts cs s.scan.slew)
    (raiseIf (faultsChanged s.scan.channels cs) .sensor t)

/-- SCAN_COMPLETION with the six converter counts (R3, R9, R11). -/
def execScanCompletion (counts : Six (BitVec 12)) (s : State) : Host.Outcome State Fault Refusal :=
  whileRunning s <|
    match s.scan.inProgress with
    | none => s
    | some fixed => startCab (completeScan fixed counts s)

/-! ## The slew record -/

/-- A slew/tilt frame is accepted: 7 bytes or more, sensor OK, slew below 3600 (R12). -/
def slewFrameAccepted (data : List Byte) : Bool :=
  7 ≤ data.length && (byteAt data 6).getLsbD 0 && pairAt data 0 < 3600

/-- The acceptance of a slew/tilt frame (R13). -/
def acceptSlewFrame (data : List Byte) (u : ScanUnit) : ScanUnit :=
  { u with
    slew :=
      { slew := pairAt data 0
        pitch := clamp (-300) 300 (signedPairAt data 2)
        roll := clamp (-300) 300 (signedPairAt data 4)
        stale := false }
    slewTimer := some 200 }

/-- SLEW_TILT_FRAME: received by a Crane Port that is up, and accepted or discarded (R12, R13, R15). -/
def execSlewTiltFrame (data : List Byte) (s : State) : Host.Outcome State Fault Refusal :=
  whileRunning s <|
    if s.crane.port.up then
      let t := craneReceives s
      if slewFrameAccepted data then { t with scan := acceptSlewFrame data t.scan } else t
    else s

/-- SLEW_TIMER_EXPIRY: the slew record becomes stale, and the timer stays stopped (R14). -/
def execSlewTimerExpiry (s : State) : Host.Outcome State Fault Refusal :=
  whileRunning s <|
    match s.scan.slewTimer with
    | none => s
    | some _ =>
      { s with scan := { s.scan with slew := { s.scan.slew with stale := true }, slewTimer := none } }

end Sys2Proof.Machine
end

