-- ==== Sys2Proof/Machine/Management.lean ====
section
/-! DEFINITION. The Management Unit (R173 to R181): the meanings of REQUEST_FRAME_RECEIVED, READ_STATUS, READ_NOTICES,
SET_NOTICE_MASK, RESET_PREPARE, RESET_EXECUTE and UNKNOWN_REQUEST, and the status pages. -/

namespace Sys2Proof.Machine

/-- The most frames that each of the two FIFOs holds (R173, R175). -/
def fifoLimit : Nat :=
  4

/-- REQUEST_FRAME_RECEIVED: appended to the request FIFO, or discarded when short or when the FIFO is full (R173). -/
def execRequestFrameReceived (data : List Byte) (s : State) : Host.Outcome State Fault Refusal :=
  whileRunning s <|
    if s.cab.port.up then
      let t := cabReceives s
      if data.length < 8 ∨ fifoLimit ≤ t.cab.requests.length then t
      else { t with cab := { t.cab with requests := t.cab.requests ++ [data.take 8] } }
    else s

/-! ## Status pages (R177) -/

/-- The code of an owner (R177). -/
def ownerCode (o : Option Ownership) : Nat :=
  match o with
  | none => 0
  | some x =>
    match x.source with
    | .cab => 1
    | .aux => 2

/-- The owner neutral bit, 0 while absent. -/
def ownerNeutral (o : Option Ownership) : Bool :=
  match o with
  | none => false
  | some x => x.neutral

/-- The purpose and source byte of a cycle (R177). -/
def cycleByte (c : Cycle) : Nat :=
  let p := match c.purpose with
    | .weigh => 0
    | .tare => 1
  let q := match c.source with
    | .button => 0
    | .auto => 1
    | .request => 2
  p + 2 * q

/-- Bytes 2 to 4 of entry 2 of page 0: purpose and source, attempt, n; 0 outside a cycle (R177). -/
def cycleBytes (p : WeighPhase) : List Byte :=
  match p.cycle? with
  | none => [0, 0, 0]
  | some c => [byteOf (cycleByte c), byteOf c.attempt, byteOf c.current.n]

/-- The Limiter's four bytes: state, cause, U (R177). -/
def limiterBytes (l : Limiter) : List Byte :=
  [byteOf l.state.code, byteOf l.state.causeCode] ++ bytes2 l.u

/-- Page 0, Part. -/
def page0 (s : State) : PageReading :=
  [[byteOf s.mgmt.resetCause.code, byteOf s.demand.crane.code] ++ limiterBytes s.limiter,
   [byteOf (ownerCode s.demand.owner),
    byteOf (bitOf (ownerNeutral s.demand.owner) 0 + bitOf s.demand.timer.isSome 1),
    byteOf (bitOf (s.demand.presence == .closed) 0 + bitOf (s.tables.keyLevel == .closed) 1),
    byteOf s.weigh.phase.code, byteOf s.weigh.lastCause.code,
    byteOf (bitOf s.mgmt.prepare 0 + bitOf s.scan.slew.stale 1)],
   cycleBytes s.weigh.phase ++ signed2 s.weigh.tare ++ [0]]

/-- Entries 0 to 6 of page 1 with no load result, or with an INVALID one of a cause and a slew stale flag: fields that
are absent read 0. -/
def page1Without (flags cause : Nat) : PageReading :=
  [[byteOf flags, byteOf cause, 0, 0, 0, 0], [0, 0, 0, 0, 0, 0], [0, 0, 0, 0, 0, 0], [0, 0, 0, 0, 0, 0],
   [0, 0, 0, 0, 0, 0], [0, 0, 0, 0, 0, 0], [0, 0, 0, 0, 0, 0]]

/-- Entries 0 to 6 of page 1 with a VALID load result; absent fields read 0. -/
def page1Valid (v : ValidLoad) : PageReading :=
  let q := v.rating.getD { sector := 0, tilt := 0, effective := 0, utilisation := 0 }
  [[byteOf (bitOf true 0 + bitOf true 1 + bitOf v.weight.isNone 2 + bitOf v.rating.isSome 3 + bitOf v.slewStale 4), 0]
     ++ signed2 (v.weight.getD 0) ++ bytes2 q.utilisation,
   bytes4 v.reach ++ [byteOf v.band, byteOf q.sector],
   signed4 v.force ++ signed2 v.lever,
   signed4 v.liftMoment ++ bytes2 v.tipArm,
   bytes4 v.deadMoment ++ bytes2 v.boomArm,
   bytes2 q.tilt ++ bytes2 q.effective ++ bytes2 v.ext,
   signed2 v.pPist ++ signed2 v.pRod ++ signed2 v.alpha]

/-- The elevation β of entry 7 of page 1. -/
def page1Beta (r : Option LoadResult) : Int :=
  match r with
  | some (.valid v) => v.beta
  | some (.invalid _ _) => 0
  | none => 0

/-- Page 1, Load result. -/
def page1 (s : State) : PageReading :=
  (match s.lau with
    | none => page1Without 0 0
    | some (.invalid cause stale) => page1Without (bitOf true 0 + bitOf stale 4) cause.toFault.code
    | some (.valid v) => page1Valid v) ++
    [signed2 (page1Beta s.lau) ++ limiterBytes s.limiter]

/-- The entry of a channel on page 2; the valid bit is the mark of R10. -/
def channelEntry (cs : Six Channel) (i : Fin 6) : List Byte :=
  let c := cs.get i
  bytes2 c.count.toNat ++ signed2 (c.value.getD 0) ++
    [byteOf (c.outCount + 4 * c.inCount + bitOf c.faulted 4 + bitOf ((channelValid cs).get i) 5),
     flagByte c.value.isSome]

/-- The entry of a section on page 2. -/
def sectionEntry (s : State) (k : Fin 6) : List Byte :=
  let r := s.shaper.sections.get k
  signed2 r.output ++ signed2 (s.demand.targets.get k) ++
    [byteOf r.dwell, byteOf (bitOf r.cut 0 + 2 * r.pendingDir.code)]

/-- Page 2, Channels, sections, slew. -/
def page2 (s : State) : PageReading :=
  allAxes.map (channelEntry s.scan.channels) ++ allAxes.map (sectionEntry s) ++
    [bytes2 s.scan.slew.slew ++ signed2 s.scan.slew.pitch ++ signed2 s.scan.slew.roll]

/-- The entry of a kind on page 3. -/
def kindEntry (x : KindTable) : List Byte :=
  [flagByte x.active.isSome, flagByte x.dirty] ++ bytes2 x.activeSum ++ [0, 0]

/-- The persist state code: 0 IDLE, or the number of the item being written (R177). -/
def persistCode (p : PersistState) : Nat :=
  match p with
  | .idle => 0
  | .writing item _ => item.number

/-- The number of a record of the queue, 0 with none (R135). -/
def numberOf (r : Option LiftRecord) : Nat :=
  match r with
  | none => 0
  | some r => r.number

/-- Page 3, Tables and records. -/
def page3 (s : State) : PageReading :=
  [kindEntry s.tables.fmt, kindEntry s.tables.cal, kindEntry s.tables.bmt, kindEntry s.tables.rct,
   kindEntry s.tables.wpt,
   byteOf s.tables.cursorKind.code :: bytes2 s.tables.cursorIndex ++
     [byteOf s.tables.mode.code, byteOf s.tables.protectSet.toNat, flagByte s.tables.held],
   [byteOf (persistCode s.tables.persist), byteOf s.tables.persistResult.code, byteOf s.tables.failedItems.toNat] ++
     bytes2 s.mgmt.mask.toNat ++ [0],
   byteOf s.records.queue.length :: bytes2 (numberOf s.records.queue.head?) ++
     bytes2 (numberOf s.records.queue.getLast?) ++ [byteOf s.records.displaced],
   bytes2 s.records.nextNumber ++ [byteOf s.records.tallyState.code, byteOf s.records.assortment.val, 0, 0]]

/-- A reading of a page from the state as it stands (R177). -/
def pageOf (s : State) (page : Nat) : PageReading :=
  match page with
  | 0 => page0 s
  | 1 => page1 s
  | 2 => page2 s
  | _ => page3 s

/-- The number of entries of a page; 0 for a page above 3 (R177). -/
def pageEntries (page : Nat) : Nat :=
  match page with
  | 0 => 3
  | 1 => 8
  | 2 => 13
  | 3 => 9
  | _ => 0

/-- The snapshot of a page, if it has one. -/
def Snapshots.get (x : Snapshots) (page : Nat) : Option PageReading :=
  match page with
  | 0 => x.page0
  | 1 => x.page1
  | 2 => x.page2
  | _ => x.page3

/-- The snapshots with a new reading of a page. -/
def Snapshots.set (x : Snapshots) (page : Nat) (r : PageReading) : Snapshots :=
  match page with
  | 0 => { x with page0 := some r }
  | 1 => { x with page1 := some r }
  | 2 => { x with page2 := some r }
  | _ => { x with page3 := some r }

/-- The reading that a READ_STATUS answers from: a fresh one at entry 0 or when the page has none, else the page's
snapshot (R177). -/
def readingFor (s : State) (page entry : Nat) : PageReading :=
  if entry = 0 then pageOf s page
  else
    match s.mgmt.snapshots.get page with
    | some r => r
    | none => pageOf s page

/-- The decision of READ_STATUS (R177). -/
def decideReadStatus (frame : List Byte) (s : State) : State × Reply :=
  let page := (byteAt frame 1).toNat
  let entry := (byteAt frame 2).toNat
  if entry < pageEntries page then
    let r := readingFor s page entry
    ({ s with mgmt := { s.mgmt with snapshots := s.mgmt.snapshots.set page r } },
      { status := .ok, data := r.getD entry [] })
  else (s, .bare .range)

/-- READ_STATUS: one entry of a status page, with the snapshot taken at entry 0 (R177). -/
def execReadStatus (s : State) : Host.Outcome State Fault Refusal :=
  whileRunning s (serve (some .readStatus) false decideReadStatus s)

/-! ## Notices -/

/-- The decision of READ_NOTICES: the flags as they stand, and then all twelve cleared (R180). -/
def decideReadNotices (_frame : List Byte) (s : State) : State × Reply :=
  ({ s with mgmt := { s.mgmt with flags := 0 } }, { status := .ok, data := bytes2 s.mgmt.flags.toNat })

/-- READ_NOTICES: the twelve flags are returned and cleared (R180). -/
def execReadNotices (s : State) : Host.Outcome State Fault Refusal :=
  whileRunning s (serve (some .readNotices) false decideReadNotices s)

/-- The decision of SET_NOTICE_MASK (R180). -/
def decideSetNoticeMask (frame : List Byte) (s : State) : State × Reply :=
  let m := pairAt frame 1
  if m < 4096 then
    ({ s with mgmt := { s.mgmt with mask := BitVec.ofNat 12 m } }, { status := .ok, data := bytes2 m })
  else (s, .bare .range)

/-- SET_NOTICE_MASK: the mask is set, or RANGE (R180). -/
def execSetNoticeMask (s : State) : Host.Outcome State Fault Refusal :=
  whileRunning s (serve (some .setNoticeMask) false decideSetNoticeMask s)

/-! ## The soft reset sequence -/

/-- The decision of RESET_PREPARE (R181); the serving sets the prepare flag. -/
def decideResetPrepare (_frame : List Byte) (s : State) : State × Reply :=
  (s, .bare .ok)

/-- RESET_PREPARE: the prepare flag is set (R181). -/
def execResetPrepare (s : State) : Host.Outcome State Fault Refusal :=
  whileRunning s (serve (some .resetPrepare) true decideResetPrepare s)

/-- The decision of RESET_EXECUTE: a soft reset becomes pending with the prepare flag set, else SEQUENCE (R181). -/
def decideResetExecute (_frame : List Byte) (s : State) : State × Reply :=
  if s.mgmt.prepare then ({ s with mgmt := { s.mgmt with softResetPending := true } }, .bare .ok)
  else (s, .bare .sequence)

/-- RESET_EXECUTE: a soft reset becomes pending, or SEQUENCE (R181). -/
def execResetExecute (s : State) : Host.Outcome State Fault Refusal :=
  whileRunning s (serve (some .resetExecute) false decideResetExecute s)

/-- The decision of a request whose code is not in the table (R174). -/
def decideUnknownRequest (_frame : List Byte) (s : State) : State × Reply :=
  (s, .bare .unknown)

/-- UNKNOWN_REQUEST: answered UNKNOWN, clearing the prepare flag (R174, R181). -/
def execUnknownRequest (s : State) : Host.Outcome State Fault Refusal :=
  whileRunning s (serve none false decideUnknownRequest s)

end Sys2Proof.Machine
end

