-- ==== Sys2Proof/Machine/Ports.lean ====
section
/-! DEFINITION. The CAN ports (R184 to R188): the meanings of NOTICE_TRANSMISSION_END, CAN_ERROR, PORT_RECOVERY,
PORT_JOIN, RECESSIVE_RUN_WHILE_OFF and FILTERED_FRAME. -/

namespace Sys2Proof.Machine

/-- The port of a name. -/
def portOf (s : State) : PortId → Port
  | .cab => s.cab.port
  | .crane => s.crane.port

/-- The state with a new record of a port. -/
def setPort (s : State) (id : PortId) (p : Port) : State :=
  match id with
  | .cab => { s with cab := { s.cab with port := p } }
  | .crane => { s with crane := { s.crane with port := p } }

/-- A port has a frame in flight, so it transmits. -/
def portSends (s : State) : PortId → Bool
  | .cab => s.cab.flight.isSome
  | .crane => s.crane.flight.isSome

/-- What waits starts on a port that has become ACTIVE or has joined, and a notice that the event itself requested
starts on a free Cab Port (R179, R185, R187, R188). -/
def startWaiting (id : PortId) (s : State) : State :=
  match id with
  | .cab => startCab s
  | .crane => startCab (startValve s)

/-- NOTICE_TRANSMISSION_END: the notice leaves flight, and a waiting response or notice starts (R185, R187). -/
def execNoticeTransmissionEnd (s : State) : Host.Outcome State Fault Refusal :=
  whileRunning s <|
    match s.cab.flight with
    | some (.notice _ _) =>
      if s.cab.port.up then startCab { s with cab := { s.cab with port := s.cab.port.sent, flight := none } } else s
    | some (.response _) => s
    | none => s

/-! ## Errors and bus-off -/

/-- A port after an error detected while it transmits or receives (R187). -/
def Port.withError (p : Port) (role : ErrorRole) : Port :=
  match role with
  | .transmitting => { p with txErrors := p.txErrors + 8 }
  | .receiving => { p with rxErrors := min (p.rxErrors + 1) 255 }

/-- A port that goes OFF: it neither sends nor receives, and its recovery count starts at 0 (R187). -/
def Port.goOff (p : Port) : Port :=
  { p with mode := .off, recovery := 0 }

/-- The frame in flight of the Cab Port when it goes OFF: a notice is abandoned and its pending flag set, a response is
kept at the head of the FIFO to be sent again (R179, R186). -/
def dropCabFlight (s : State) : State :=
  let t := { s with cab := { s.cab with flight := none } }
  match s.cab.flight with
  | some (.notice _ _) => { t with mgmt := { t.mgmt with noticePending := true } }
  | some (.response _) => t
  | none => t

/-- The frame in flight of the Crane Port when it goes OFF: it is abandoned and the pending flag set (R104, R186). -/
def dropCraneFlight (s : State) : State :=
  match s.crane.flight with
  | some _ => { s with crane := { s.crane with flight := none }, valve := { s.valve with pending := true } }
  | none => s

/-- A port goes OFF: its frame in flight is abandoned or kept, the Crane Port's going OFF sends an ACTIVE crane to READY
(R78), and PORT is raised (R187). -/
def busOff (id : PortId) (s : State) : State :=
  let t := setPort s id (portOf s id).goOff
  raise .port <|
    match id with
    | .cab => dropCabFlight t
    | .crane => activeToReady (dropCraneFlight t)

/-- CAN_ERROR: a port that is up raises its error count, and goes OFF when its transmit error count passes 255. An error
while transmitting needs a frame in flight; the frame stays in flight and is sent again (R186, R187). -/
def execCanError (id : PortId) (role : ErrorRole) (s : State) : Host.Outcome State Fault Refusal :=
  whileRunning s <|
    if (portOf s id).up ∧ (role = .receiving ∨ portSends s id) then
      let p := (portOf s id).withError role
      let t := setPort s id p
      if 255 < p.txErrors then startCab (busOff id t) else t
    else s

/-! ## Recovery and joining -/

/-- The recovery count that makes a port ACTIVE (R187). -/
def recoveryLimit : Nat :=
  128

/-- A port that goes from OFF to ACTIVE: both error counts 0, the recovery count cleared (R187). -/
def Port.recover (p : Port) : Port :=
  { p with mode := .active, txErrors := 0, rxErrors := 0, recovery := 0 }

/-- A port's recovery count reaches 128: it goes ACTIVE, PORT is raised, and what waits starts (R187). -/
def recoverPort (id : PortId) (s : State) : State :=
  startWaiting id (raise .port (setPort s id (portOf s id).recover))

/-- PORT_RECOVERY: the run of recessive bits at which the recovery count of an OFF port reaches 128 (R187; log
entry 4). -/
def execPortRecovery (id : PortId) (s : State) : Host.Outcome State Fault Refusal :=
  whileRunning s <|
    if (portOf s id).mode = .off ∧ recoveryLimit ≤ (portOf s id).recovery + 1 then recoverPort id s else s

/-- RECESSIVE_RUN_WHILE_OFF: the recovery count of an OFF port rises by 1; reaching 128 is the recovery (R187; log
entry 4). -/
def execRecessiveRunWhileOff (id : PortId) (s : State) : Host.Outcome State Fault Refusal :=
  whileRunning s <|
    let p := portOf s id
    if p.mode = .off then
      if recoveryLimit ≤ p.recovery + 1 then recoverPort id s
      else setPort s id { p with recovery := p.recovery + 1 }
    else s

/-- PORT_JOIN: after a reset a port joins its bus, and what waits starts; no PORT flag is raised (R188). -/
def execPortJoin (id : PortId) (s : State) : Host.Outcome State Fault Refusal :=
  whileRunning s <|
    if (portOf s id).joined then s
    else startWaiting id (setPort s id { portOf s id with joined := true })

/-! ## Filters -/

/-- A frame that the port itself sent is not a reception (R184, R187; log entry 19). -/
def BusFrame.isReception (f : BusFrame) : Bool :=
  match f with
  | .data _ => true
  | .remote => true
  | .extended => true
  | .own => false

/-- FILTERED_FRAME: a frame that the filter of a port that is up does not accept is dropped; its correct reception
lowers the receive error count (R184, R187). -/
def execFilteredFrame (id : PortId) (frame : BusFrame) (s : State) : Host.Outcome State Fault Refusal :=
  whileRunning s <|
    if (portOf s id).up ∧ filterAccepts id s.cab.na frame = false ∧ BusFrame.isReception frame then
      setPort s id (portOf s id).received
    else s

end Sys2Proof.Machine
end

