-- ==== Sys2Proof/Machine/Resets.lean ====
section
/-! DEFINITION. The three resets and the fall of the supply (R16, R17, R20, R56, R82, R83, R95, R96, R105, R106, R127,
R128, R142, R143, R162, R169 to R172, R182, R183, R188): the meanings of POWER_ON, SUPPLY_DIP, SOFT_RESET and
SUPPLY_FALLS_BELOW_DIP_THRESHOLD, and of RESPONSE_TRANSMISSION_END, at which a pending soft reset takes place. -/

namespace Sys2Proof.Machine

/-! ## The fall of the supply -/

/-- The supply falls below the dip threshold: the part is held in reset, a PERSIST in progress ends with its item
spoilt, and a pending soft reset is removed (R169, R181). -/
def supplyFalls (s : State) : State :=
  { s with
    power := .heldInReset
    tables := s.tables.losePersist
    mgmt := { s.mgmt with softResetPending := false } }

/-- SUPPLY_FALLS_BELOW_DIP_THRESHOLD (R169). -/
def execSupplyFalls (s : State) : Host.Outcome State Fault Refusal :=
  .next (supplyFalls s)

/-! ## POWER_ON and SUPPLY_DIP -/

/-- The node address read from the straps, with NA0 as its low bit (R184). -/
def nodeAddress (na0 na1 : Bool) : Fin 4 :=
  match na1, na0 with
  | false, false => 0
  | false, true => 1
  | true, false => 2
  | true, true => 3

/-- The Table Store after start-up loading (R162, R170, R171). -/
def loadedTables (settings : Settings) (keyLine : Level) (store : StoreContents) : TableStore :=
  { fmt := loadKind .fmt store.fmt
    cal := loadKind .cal store.cal
    bmt := loadKind .bmt store.bmt
    rct := loadKind .rct store.rct
    wpt := loadKind .wpt store.wpt
    cursorKind := .fmt
    cursorIndex := 0
    mode := settings.mode
    protectSet := settings.protectSet
    held := false
    keyLevel := keyLine
    keyFilter := none
    persist := .idle
    persistResult := .none
    failedItems := 0
    stored := store }

/-- The end of a reset of kind POWER_ON or SUPPLY_DIP: every block takes its reset state from its own rule, and the
store is loaded. Only the store, the lines, the queue of commands and the counter of free choices come through. -/
def restart (cause : ResetCause) (na : Fin 4) (s : State) : State :=
  let settings := loadSettings s.tables.stored.settings
  let tables := loadedTables settings s.pins.serviceKeyLine s.tables.stored
  { power := .running
    pins := s.pins
    cab := { port := .afterReset, na := na, requests := [], responses := [], flight := none }
    crane := { port := .afterReset, flight := none }
    scan :=
      { scanTimer := some 10, channels := Six.same .afterReset, inProgress := none,
        slew := { slew := 0, pitch := 0, roll := 0, stale := true }, slewTimer := none }
    lau := none
    limiter := { state := .fault .noData, u := 0 }
    demand :=
      { owner := none, crane := .stowed, targets := Six.same 0, timer := none, weighCab := false, weighAux := false,
        presence := s.pins.presenceLine, presenceFilter := none }
    shaper := { stepTimer := some 10, sections := Six.same .atRest }
    valve := { pending := false, refreshTimer := some (refreshMillis tables.fmt.active) }
    weigh :=
      { phase := .idle, prevGrapple := none, tare := settings.tare, lastCause := .none, settleTimer := none,
        windowTimer := none }
    records :=
      { queue := [], nextNumber := 1, displaced := 0, tallyState := .closed,
        tally := List.replicate 16 { lifts := 0, mass := 0 }, assortment := 0 }
    tables := tables
    mgmt :=
      { prepare := false, flags := 0, mask := settings.mask, noticePending := false, resetCause := cause,
        softResetPending := false, snapshots := ⟨none, none, none, none⟩ }
    pending := s.pending
    freeCount := s.freeCount }

/-- POWER_ON, with the strap levels: the fall of the supply that comes before it, and the restart (R169 to R171). -/
def execPowerOn (na0 na1 : Bool) (s : State) : Host.Outcome State Fault Refusal :=
  .next (restart .powerOn (nodeAddress na0 na1) (supplyFalls s))

/-- SUPPLY_DIP, with the strap levels: the fall of the supply that comes before it, and the restart (R169 to R171). -/
def execSupplyDip (na0 na1 : Bool) (s : State) : Host.Outcome State Fault Refusal :=
  .next (restart .supplyDip (nodeAddress na0 na1) (supplyFalls s))

/-! ## The soft reset -/

/-- The Demand Unit at a soft reset (R83). -/
def DemandUnit.softReset (d : DemandUnit) : DemandUnit :=
  { d with
    owner := none, crane := .stowed, targets := Six.same 0, timer := none, weighCab := false, weighAux := false }

/-- The Table Store at a soft reset: every shadow CLEAN, the cursor at FMT, index 0 (R162, R172). -/
def TableStore.softReset (t : TableStore) : TableStore :=
  { t with
    fmt := t.fmt.clean .fmt
    cal := t.cal.clean .cal
    bmt := t.bmt.clean .bmt
    rct := t.rct.clean .rct
    wpt := t.wpt.clean .wpt
    cursorKind := .fmt
    cursorIndex := 0 }

/-- The Management Unit at a soft reset: flags, pending notice, prepare flag and snapshots cleared, the mask kept
(R177, R182). -/
def Management.softReset (m : Management) : Management :=
  { m with
    prepare := false, flags := 0, noticePending := false, resetCause := .soft, softResetPending := false,
    snapshots := ⟨none, none, none, none⟩ }

/-- The Weigh Unit at a soft reset: a running cycle is aborted with cause RESET and WEIGH_FAILED raised, an ARMED unit
is disarmed, an IDLE unit is left (R128). -/
def weighSoftReset (s : State) : State :=
  if s.weigh.phase.running then abortCycle .reset s
  else { s with weigh := { s.weigh with phase := .idle, settleTimer := none, windowTimer := none } }

/-- Every block takes the soft reset; the Management Unit's clearing of its flags stands before any flag that another
block raises (R182), and the valve frame that a zeroed output requests is formed after all of them (R96, R106). -/
def softReset (s : State) : State :=
  let t : State :=
    { s with
      cab := { s.cab with requests := [], responses := [] }
      lau := none
      limiter := { state := .fault .noData, u := 0 }
      demand := s.demand.softReset
      shaper := { s.shaper with sections := Six.same .atRest }
      tables := s.tables.softReset
      mgmt := s.mgmt.softReset }
  let u := weighSoftReset t
  if s.shaper.sections.any (fun r => r.output != 0) then requestValve u else u

/-- The response of a RESET_EXECUTE that was answered OK. -/
def isResetResponse (response : List Byte) : Bool :=
  requestOf response == some .resetExecute && (byteAt response 1).toNat == Status.ok.code

/-- The successful transmission end of the oldest response: it leaves the response FIFO (R175, R185, R187). -/
def responseEnds (s : State) : State :=
  { s with
    cab :=
      { s.cab with port := s.cab.port.sent, responses := s.cab.responses.drop 1, flight := none } }

/-- The response in flight is the one at whose end a pending soft reset takes place (R181). -/
def resetAtEnd (s : State) : Bool :=
  s.mgmt.softResetPending && isResetResponse (s.cab.responses.headD [])

/-- RESPONSE_TRANSMISSION_END: the response leaves the FIFO; where it is the RESET_EXECUTE response of a pending soft
reset, that soft reset takes place at this same end (R181; log entry 3); then the next waiting frame starts (R185). -/
def execResponseTransmissionEnd (s : State) : Host.Outcome State Fault Refusal :=
  whileRunning s <|
    if s.cab.port.up ∧ s.cab.sendsResponse then
      let t := responseEnds s
      startCab (if resetAtEnd s then softReset t else t)
    else s

/-- SOFT_RESET: the successful transmission end of the RESET_EXECUTE response, at which every block takes the soft reset
(R181, R182; log entry 3). -/
def execSoftReset (s : State) : Host.Outcome State Fault Refusal :=
  whileRunning s <|
    if s.cab.port.up ∧ s.cab.sendsResponse ∧ resetAtEnd s then startCab (softReset (responseEnds s))
    else s

end Sys2Proof.Machine
end

