-- ==== Sys2Proof/Machine/Dispatch.lean ====
section
/-! DEFINITION. The dispatch: one arm for each command, each one call of its meaning. -/

namespace Sys2Proof.Machine

def exec (i : Instr) (s : State) : Host.Outcome State Fault Refusal :=
  match i with
  | .powerOn na0 na1 => Sys2Proof.Machine.execPowerOn na0 na1 s
  | .supplyDip na0 na1 => Sys2Proof.Machine.execSupplyDip na0 na1 s
  | .softReset => Sys2Proof.Machine.execSoftReset s
  | .scanTimerExpiry => Sys2Proof.Machine.execScanTimerExpiry s
  | .scanCompletion counts => Sys2Proof.Machine.execScanCompletion counts s
  | .slewTiltFrame data => Sys2Proof.Machine.execSlewTiltFrame data s
  | .slewTimerExpiry => Sys2Proof.Machine.execSlewTimerExpiry s
  | .demandFrame source data => Sys2Proof.Machine.execDemandFrame source data s
  | .demandTimerExpiry => Sys2Proof.Machine.execDemandTimerExpiry s
  | .presenceLineChange => Sys2Proof.Machine.execPresenceLineChange s
  | .presenceOpens => Sys2Proof.Machine.execPresenceOpens s
  | .presenceCloses => Sys2Proof.Machine.execPresenceCloses s
  | .serviceKeyLineChange => Sys2Proof.Machine.execServiceKeyLineChange s
  | .keyLevelChange => Sys2Proof.Machine.execKeyLevelChange s
  | .shaperStep => Sys2Proof.Machine.execShaperStep s
  | .valveTransmissionEnd => Sys2Proof.Machine.execValveTransmissionEnd s
  | .refreshTimerExpiry => Sys2Proof.Machine.execRefreshTimerExpiry s
  | .settleTimerExpiry => Sys2Proof.Machine.execSettleTimerExpiry s
  | .windowTimerExpiry => Sys2Proof.Machine.execWindowTimerExpiry s
  | .requestFrameReceived data => Sys2Proof.Machine.execRequestFrameReceived data s
  | .readStatus => Sys2Proof.Machine.execReadStatus s
  | .readNotices => Sys2Proof.Machine.execReadNotices s
  | .setNoticeMask => Sys2Proof.Machine.execSetNoticeMask s
  | .deploy => Sys2Proof.Machine.execDeploy s
  | .stow => Sys2Proof.Machine.execStow s
  | .selectAssortment => Sys2Proof.Machine.execSelectAssortment s
  | .openLoad => Sys2Proof.Machine.execOpenLoad s
  | .closeLoad => Sys2Proof.Machine.execCloseLoad s
  | .readTally => Sys2Proof.Machine.execReadTally s
  | .readRecord => Sys2Proof.Machine.execReadRecord s
  | .ackRecords => Sys2Proof.Machine.execAckRecords s
  | .weighNow => Sys2Proof.Machine.execWeighNow s
  | .tare => Sys2Proof.Machine.execTare s
  | .cancelWeigh => Sys2Proof.Machine.execCancelWeigh s
  | .openTable => Sys2Proof.Machine.execOpenTable s
  | .writeWords => Sys2Proof.Machine.execWriteWords s
  | .readWords => Sys2Proof.Machine.execReadWords s
  | .commit => Sys2Proof.Machine.execCommit s
  | .discard => Sys2Proof.Machine.execDiscard s
  | .setProtection => Sys2Proof.Machine.execSetProtection s
  | .persist => Sys2Proof.Machine.execPersist s
  | .persistItemEnd found => Sys2Proof.Machine.execPersistItemEnd found s
  | .resetPrepare => Sys2Proof.Machine.execResetPrepare s
  | .resetExecute => Sys2Proof.Machine.execResetExecute s
  | .unknownRequest => Sys2Proof.Machine.execUnknownRequest s
  | .responseTransmissionEnd => Sys2Proof.Machine.execResponseTransmissionEnd s
  | .noticeTransmissionEnd => Sys2Proof.Machine.execNoticeTransmissionEnd s
  | .canError port role => Sys2Proof.Machine.execCanError port role s
  | .portRecovery port => Sys2Proof.Machine.execPortRecovery port s
  | .portJoin port => Sys2Proof.Machine.execPortJoin port s
  | .filteredFrame port frame => Sys2Proof.Machine.execFilteredFrame port frame s
  | .supplyFallsBelowDipThreshold => Sys2Proof.Machine.execSupplyFalls s
  | .recessiveRunWhileOff port => Sys2Proof.Machine.execRecessiveRunWhileOff port s

end Sys2Proof.Machine
end

