-- ==== Sys2Proof/Safety.lean ====
section
/-! DEFINITION. The terms in which claims about the part are stated: what a served request leaves, what a free Cab Port
starts, what the words of an image must satisfy, what a status page reads, which axis drives a section and how the
section moves, and the invariants of the crane, the weigh cycle, the Limiter, the record queue, the tables and the two
transmitters. -/

namespace Sys2Proof.Machine

/-! ## Served requests -/

/-- The serving of the oldest request: the part is running, the frame is the oldest of the request FIFO and carries the
code of `req` (none for a code outside the table of 10.1), the response FIFO has room, and no soft reset is pending
(R174). -/
structure Serving (req : Option Request) (s : State) (frame : List Byte) (rest : List (List Byte)) : Prop where
  running : s.power = .running
  oldest : s.cab.requests = frame :: rest
  code : requestOf frame = req
  room : s.cab.responses.length < 4
  noReset : s.mgmt.softResetPending = false

/-- A state in which the oldest request has been taken and answered: the frame has left the request FIFO, one response
stands at the end of the response FIFO with the request's code, the status and six data bytes, and the prepare flag has
the given value (R174, R181). -/
def answeredWith (prepare : Bool) (frame : List Byte) (rest : List (List Byte)) (status : Nat) (data : List Byte)
    (u : State) : State :=
  { u with
    cab :=
      { u.cab with
        requests := rest
        responses := u.cab.responses ++ [byteAt frame 0 :: BitVec.ofNat 8 status :: padSix data] }
    mgmt := { u.mgmt with prepare := prepare } }

/-- The same with the prepare flag cleared, as after every request but RESET_PREPARE (R181). -/
def answered (frame : List Byte) (rest : List (List Byte)) (status : Nat) (data : List Byte) (u : State) : State :=
  answeredWith false frame rest status data u

/-! ## The Cab Port's transmitter -/

/-- `t` is `u` with the transmission that a free Cab Port starts: the oldest response if one waits, on 0x5D0 + NA, else
the pending notice with the content standing in `u`, on 0x5E0 + NA; nothing when the port is not free or nothing waits
(R179, R184, R185). -/
def CabStarts (u t : State) : Prop :=
  if u.cab.port.mode = .active ∧ u.cab.port.joined = true ∧ u.cab.flight = none then
    if u.cab.responses ≠ [] then t = { u with cab := { u.cab with flight := some (.response (0x5D0 + u.cab.na.val)) } }
    else if u.mgmt.noticePending = true then
      t =
        { u with
          cab := { u.cab with flight := some (.notice (0x5E0 + u.cab.na.val) (noticeContent u)) }
          mgmt := { u.mgmt with noticePending := false } }
    else t = u
  else t = u

/-- `t` is what a request served in `s` leaves when its decision and its answer give `u`: what `CabStarts` says, except
that a step which brings both a response and a notice to a free port may start either of them (R185). -/
def CabAnswers (s u t : State) : Prop :=
  if (s.cab.port.mode = .active ∧ s.cab.port.joined = true ∧ s.cab.flight = none) ∧ s.cab.responses = [] ∧
      s.mgmt.noticePending = false ∧ u.mgmt.noticePending = true then
    t = { u with cab := { u.cab with flight := some (.response (0x5D0 + u.cab.na.val)) }, freeCount := u.freeCount + 1 } ∨
    t =
      { u with
        cab := { u.cab with flight := some (.notice (0x5E0 + u.cab.na.val) (noticeContent u)) }
        mgmt := { u.mgmt with noticePending := false }
        freeCount := u.freeCount + 1 }
  else CabStarts u t

/-! ## The Crane Port's transmitter -/

/-- A valve frame has been requested in `u`: the pending flag is set, or the frame starts at once on a Crane Port that
is up with none in flight, on 0x2C4 (R99, R100). -/
def valveRequested (u : State) : State :=
  if u.crane.port.mode = .active ∧ u.crane.port.joined = true ∧ u.crane.flight = none then
    { u with
      crane := { u.crane with flight := some { id := 0x2C4, content := valveContent u } }
      valve := { u.valve with pending := false } }
  else { u with valve := { u.valve with pending := true } }

/-! ## Aborts -/

/-- A running cycle has been aborted with a cause: IDLE, both timers stopped, WEIGH_FAILED raised (R125). -/
def cycleAborted (cause : LastCause) (s : State) : State :=
  raise .weighFailed
    { s with
      weigh := { s.weigh with phase := .idle, settleTimer := none, windowTimer := none, lastCause := cause } }

/-- A running cycle has been aborted with a cause, and any other weigh state is as it was (R125). -/
def abortedIfRunning (cause : LastCause) (s : State) : State :=
  match s.weigh.phase with
  | .settling _ => cycleAborted cause s
  | .sampling _ => cycleAborted cause s
  | .idle => s
  | .armed => s

/-- The crane state has become `dest`, and a change out of ACTIVE has aborted a running cycle with CRANE_STATE (R80,
R125). -/
def craneMoved (dest : CraneState) (s : State) : State :=
  let t := { s with demand := { s.demand with crane := dest } }
  if s.demand.crane = .active ∧ dest ≠ .active then abortedIfRunning .craneState t else t

/-- An ACTIVE crane has become READY; the other crane states are as they were. -/
def activeSentToReady (s : State) : State :=
  if s.demand.crane = .active then craneMoved .ready s else s

/-! ## What the store holds after a fall of the supply -/

/-- The stored item of an item of a PERSIST. -/
def StoreContents.item (x : StoreContents) : PersistItem → Stored
  | .wpt => x.wpt
  | .fmt => x.fmt
  | .cal => x.cal
  | .bmt => x.bmt
  | .rct => x.rct
  | .settings => x.settings

/-- The item of a PERSIST that holds the image of a kind. -/
def Kind.item : Kind → PersistItem
  | .fmt => .fmt
  | .cal => .cal
  | .bmt => .bmt
  | .rct => .rct
  | .wpt => .wpt

/-- What the store holds of an item once the supply has fallen: the item under way is spoilt, and every other one keeps
its contents (R169). -/
def storedAfterFall (s : State) (item : PersistItem) : Stored :=
  match s.tables.persist with
  | .idle => s.tables.stored.item item
  | .writing j _ => if item = j then .spoilt else s.tables.stored.item item

/-! ## The ranges of 8.2 with the conditions of 8.6, word by word -/

/-- What word `j` of an FMT must satisfy: its range, sections and roles named once, and no role without a section
(R154). -/
def FmtWordPasses (ws : Image) (j : Nat) : Prop :=
  let w := fieldAt ws
  (j = 0 → 2 ≤ w 0 ∧ w 0 ≤ 50) ∧
  ∀ i < 6,
    let axis := 1 + 9 * i
    (j = axis → w axis = 65535 ∨ (w axis ≤ 5 ∧ ∀ e < i, w (1 + 9 * e) ≠ w axis)) ∧
    (j = axis + 1 → w (axis + 1) ≤ 1) ∧
    (j = axis + 2 → w (axis + 2) ≤ 300) ∧
    (j = axis + 3 → w (axis + 3) ≤ 1000) ∧
    (j = axis + 4 → 1 ≤ w (axis + 4) ∧ w (axis + 4) ≤ 1000) ∧
    (j = axis + 5 → 1 ≤ w (axis + 5) ∧ w (axis + 5) ≤ 1000) ∧
    (j = axis + 6 → w (axis + 6) ≤ 50) ∧
    (j = axis + 7 → w (axis + 7) % 256 ≤ 2 ∧ w (axis + 7) / 256 ≤ 2) ∧
    (j = axis + 8 → w (axis + 8) ≤ 2 ∧
      (w (axis + 8) ≠ 0 → w axis ≠ 65535 ∧ ∀ e < i, w (1 + 9 * e + 8) ≠ w (axis + 8)))

/-- What word `j` of a CAL must satisfy (R155). That a window low above 255 fails at its own word is the model's choice
(DEDUCED, log entry 34). -/
def CalWordPasses (ws : Image) (j : Nat) : Prop :=
  let w := fieldAt ws
  ∀ c < 6,
    (j = 6 * c → w (6 * c) ≤ 3839) ∧
    (j = 6 * c + 1 → w (6 * c) + 256 ≤ w (6 * c + 1) ∧ w (6 * c + 1) ≤ 4095) ∧
    (j = 6 * c + 3 → signedFieldAt ws (6 * c + 2) < signedFieldAt ws (6 * c + 3)) ∧
    (j = 6 * c + 4 → w (6 * c + 4) ≤ 255) ∧
    (j = 6 * c + 5 → w (6 * c + 4) ≤ w (6 * c + 5) ∧ w (6 * c + 5) ≤ 255)

/-- What word `j` of a BMT must satisfy (R156). -/
def BmtWordPasses (ws : Image) (j : Nat) : Prop :=
  let w := fieldAt ws
  ((j = 0 ∨ j = 5 ∨ j = 7 ∨ j = 9) → w j ≤ 20000) ∧
  ((j = 1 ∨ j = 2) → 1 ≤ w j ∧ w j ≤ 20000) ∧
  ((j = 3 ∨ j = 4) → 1 ≤ w j ∧ w j ≤ 65535) ∧
  ((j = 6 ∨ j = 8 ∨ j = 12) → w j ≤ 30000) ∧
  (j = 10 → w 10 ≤ 30000 ∧ (w 5 = 0 → w 10 = 0)) ∧
  (j = 11 → w 11 ≤ 20000 ∧ (w 5 = 0 → w 11 = 0)) ∧
  (∀ i < 33, j = 13 + i → 50 ≤ w (13 + i) ∧ w (13 + i) ≤ 2000)

/-- What word `j` of an RCT must satisfy; the starts of sectors at or beyond the count are free (R157). -/
def RctWordPasses (ws : Image) (j : Nat) : Prop :=
  let w := fieldAt ws
  (j = 0 → 1 ≤ w 0 ∧ w 0 ≤ 8) ∧
  (j = 1 → 500 ≤ w 1 ∧ w 1 ≤ 999) ∧
  (j = 2 → 900 ≤ w 2 ∧ w 2 ≤ 1200 ∧ w 1 < w 2) ∧
  (j = 3 → w 1 ≤ w 3 ∧ w 3 < w 2) ∧
  (j = 4 → 100 ≤ w 4 ∧ w 4 ≤ 1000) ∧
  (j = 5 → w 5 ≤ 300) ∧
  (j = 6 → w 6 = 0) ∧
  (∀ s < 8,
    (j = 6 + 4 * s → 1 ≤ s → s < w 0 → w (6 + 4 * (s - 1)) < w (6 + 4 * s)) ∧
    (j = 7 + 4 * s → w (7 + 4 * s) ≤ 1) ∧
    (j = 8 + 4 * s → w (8 + 4 * s) ≤ 1) ∧
    (j = 9 + 4 * s → w (9 + 4 * s) ≤ 1000) ∧
    ∀ b < 41, j = 38 + 41 * s + b → w (38 + 41 * s + b) ≤ 30000)

/-- What word `j` of a WPT must satisfy (R158). -/
def WptWordPasses (ws : Image) (j : Nat) : Prop :=
  let w := fieldAt ws
  (j = 0 → w 0 ≤ 2) ∧
  (j = 1 → w 1 ≤ 1) ∧
  (j = 2 → w 2 ≤ 200) ∧
  (j = 3 → 4 ≤ w 3 ∧ w 3 ≤ 32) ∧
  (j = 4 → 1 ≤ w 4 ∧ w 4 ≤ 500) ∧
  (j = 5 → w 5 ≤ 5) ∧
  (j = 6 → 50 ≤ w 6 ∧ w 6 ≤ 500) ∧
  (j = 7 → 1 ≤ w 7 ∧ w 7 ≤ 999) ∧
  (j = 8 → w 7 < w 8 ∧ w 8 ≤ 1000) ∧
  (j = 9 → 100 ≤ w 9 ∧ w 9 ≤ 1000)

/-- What word `j` of an image of a kind must satisfy, from the tables of 8.2 and the rules of 8.6. -/
def WordPasses (k : Kind) (ws : Image) (j : Nat) : Prop :=
  match k with
  | .fmt => FmtWordPasses ws j
  | .cal => CalWordPasses ws j
  | .bmt => BmtWordPasses ws j
  | .rct => RctWordPasses ws j
  | .wpt => WptWordPasses ws j

/-! ## What a status page reads -/

/-- The contents of the entries of the four status pages, data bytes 2..7, by the table of R177; a field absent from
its record reads 0. -/
structure PageContents (s : State) : Prop where
  page0 : pageOf s 0 =
    [[BitVec.ofNat 8 s.mgmt.resetCause.code, BitVec.ofNat 8 s.demand.crane.code,
      BitVec.ofNat 8 s.limiter.state.code, BitVec.ofNat 8 s.limiter.state.causeCode] ++ bytes2 s.limiter.u,
     [match s.demand.owner with
        | none => 0
        | some o => if o.source = .cab then 1 else 2,
      (match s.demand.owner with
        | none => 0
        | some o => if o.neutral then 1 else 0) + (if s.demand.timer = none then 0 else 2),
      (if s.demand.presence = .closed then 1 else 0) + (if s.tables.keyLevel = .closed then 2 else 0),
      BitVec.ofNat 8 s.weigh.phase.code, BitVec.ofNat 8 s.weigh.lastCause.code,
      (if s.mgmt.prepare then 1 else 0) + (if s.scan.slew.stale then 2 else 0)],
     (match s.weigh.phase.cycle? with
      | none => [(0 : Byte), 0, 0]
      | some c =>
        [(if c.purpose = .tare then (1 : Byte) else 0) +
          (match c.source with
            | .button => 0
            | .auto => 2
            | .request => 4),
         BitVec.ofNat 8 c.attempt, BitVec.ofNat 8 c.current.n]) ++ signed2 s.weigh.tare ++ [0]]
  page1Last : (pageOf s 1)[7]? = some
    (signed2 (match s.lau with
        | some (.valid v) => v.beta
        | _ => 0) ++
      [BitVec.ofNat 8 s.limiter.state.code, BitVec.ofNat 8 s.limiter.state.causeCode] ++ bytes2 s.limiter.u)
  page1Absent : s.lau = none → (pageOf s 1).take 7 = List.replicate 7 [0, 0, 0, 0, 0, 0]
  page1Invalid : ∀ cause stale, s.lau = some (.invalid cause stale) →
    (pageOf s 1).take 7 =
      [if stale then 17 else 1, if cause = .sensor then 2 else 3, 0, 0, 0, 0] :: List.replicate 6 [0, 0, 0, 0, 0, 0]
  page1Valid : ∀ v, s.lau = some (.valid v) →
    let q := v.rating.getD { sector := 0, tilt := 0, effective := 0, utilisation := 0 }
    (pageOf s 1).take 7 =
      [[(3 : Byte) + (if v.weight = none then 4 else 0) + (if v.rating = none then 0 else 8) + (if v.slewStale then 16 else 0), 0]
         ++ signed2 (v.weight.getD 0) ++ bytes2 q.utilisation,
       bytes4 v.reach ++ [BitVec.ofNat 8 v.band, BitVec.ofNat 8 q.sector],
       signed4 v.force ++ signed2 v.lever,
       signed4 v.liftMoment ++ bytes2 v.tipArm,
       bytes4 v.deadMoment ++ bytes2 v.boomArm,
       bytes2 q.tilt ++ bytes2 q.effective ++ bytes2 v.ext,
       signed2 v.pPist ++ signed2 v.pRod ++ signed2 v.alpha]
  /-- The valid bit is the mark of R10, which the model forms from the fault fields as they stand (log entry 16). -/
  page2Channel : ∀ i : Fin 6,
    let c := s.scan.channels.get i
    (pageOf s 2)[i.val]? = some
      (bytes2 c.count.toNat ++ signed2 (c.value.getD 0) ++
        [BitVec.ofNat 8 (c.outCount + 4 * c.inCount + (if c.faulted then 16 else 0) +
          (if c.faulted || (s.scan.channels.get 5).faulted then 0 else 32)),
         if c.value = none then 0 else 1])
  page2Section : ∀ k : Fin 6,
    let r := s.shaper.sections.get k
    (pageOf s 2)[6 + k.val]? = some
      (signed2 r.output ++ signed2 (s.demand.targets.get k) ++
        [BitVec.ofNat 8 r.dwell, BitVec.ofNat 8 ((if r.cut then 1 else 0) + 2 * r.pendingDir.code)])
  page2Slew : (pageOf s 2)[12]? = some
    (bytes2 s.scan.slew.slew ++ signed2 s.scan.slew.pitch ++ signed2 s.scan.slew.roll)
  page3Kind : ∀ k : Kind,
    let x := s.tables.kind k
    (pageOf s 3)[k.code - 1]? = some
      ([if x.active = none then (0 : Byte) else 1, if x.dirty then 1 else 0] ++
        bytes2 (match x.active with
          | none => 0
          | some ws => (ws.map BitVec.toNat).sum % 65536) ++ [0, 0])
  page3Rest : (pageOf s 3).drop 5 =
    [[BitVec.ofNat 8 s.tables.cursorKind.code] ++ bytes2 s.tables.cursorIndex ++
       [BitVec.ofNat 8 s.tables.mode.code, BitVec.ofNat 8 s.tables.protectSet.toNat, if s.tables.held then 1 else 0],
     [match s.tables.persist with
        | .idle => 0
        | .writing item _ => BitVec.ofNat 8 item.number,
      BitVec.ofNat 8 s.tables.persistResult.code, BitVec.ofNat 8 s.tables.failedItems.toNat] ++
       bytes2 s.mgmt.mask.toNat ++ [0],
     [BitVec.ofNat 8 s.records.queue.length] ++
       bytes2 (match s.records.queue.head? with
         | none => 0
         | some r => r.number) ++
       bytes2 (match s.records.queue.getLast? with
         | none => 0
         | some r => r.number) ++ [BitVec.ofNat 8 s.records.displaced],
     bytes2 s.records.nextNumber ++
       [BitVec.ofNat 8 s.records.tallyState.code, BitVec.ofNat 8 s.records.assortment.val, 0, 0]]

/-- The codes and the byte forms that the status pages use: little-endian bytes, two's complement, and the codes that
R177, R165, R167, R176, 3.3 and 4.7 give. -/
structure PageCodes : Prop where
  bytes : (∀ n, bytes2 n = [BitVec.ofNat 8 n, BitVec.ofNat 8 (n / 256)]) ∧
    (∀ n, bytes4 n =
      [BitVec.ofNat 8 n, BitVec.ofNat 8 (n / 256), BitVec.ofNat 8 (n / 65536), BitVec.ofNat 8 (n / 16777216)]) ∧
    (∀ x : Int, signed2 x = bytes2 (x % 65536).toNat) ∧ (∀ x : Int, signed4 x = bytes4 (x % 4294967296).toNat)
  resetCause : [ResetCause.powerOn, .supplyDip, .soft].map ResetCause.code = [0, 1, 2]
  crane : [CraneState.stowed, .ready, .active, .held].map CraneState.code = [0, 1, 2, 3]
  limiter : [LimiterState.clear, .warn, .limit].map LimiterState.code = [0, 1, 2] ∧
    ∀ c, (LimiterState.fault c).code = 3
  cause : [LimiterState.clear, .warn, .limit, .fault .noData, .fault .sensor, .fault .noGeometry,
    .fault .noRating].map LimiterState.causeCode = [0, 0, 0, 1, 2, 3, 4]
  weigh : ∀ c, [WeighPhase.idle, .armed, .settling c, .sampling c].map WeighPhase.code = [0, 1, 2, 3]
  lastCause : [LastCause.none, .noSample, .unstable, .tareRange, .craneState, .table, .cancelled, .reset].map
    LastCause.code = [0, 1, 2, 3, 4, 5, 6, 7]
  direction : [Direction.none, .plus, .minus].map Direction.code = [0, 1, 2]
  kind : [Kind.fmt, .cal, .bmt, .rct, .wpt].map Kind.code = [1, 2, 3, 4, 5]
  mode : [ProtectionMode.isOpen, .keyed, .fixed].map ProtectionMode.code = [0, 1, 2]
  item : [PersistItem.wpt, .fmt, .cal, .bmt, .rct, .settings].map PersistItem.number = [1, 2, 3, 4, 5, 6]
  result : [PersistResult.none, .ok, .failed].map PersistResult.code = [0, 1, 2]
  tally : [TallyState.closed, .loading, .unloading].map TallyState.code = [0, 1, 2]

/-! ## The word layouts of 8.2 that the Demand Unit, the Section Shaper and the Weigh Unit read -/

/-- The axis record of axis `i` in an FMT image, word by word by the layout of 8.2. A word without a stated meaning
(log entry 13) is left out. -/
structure FmtFields (ws : Image) (i : Fin 6) (a : AxisRecord) : Prop where
  drives : ∀ k : Fin 6, fieldAt ws (1 + 9 * i.val) = k.val → a.drives = some k
  drivesNone : fieldAt ws (1 + 9 * i.val) = 65535 → a.drives = none
  senseNormal : fieldAt ws (1 + 9 * i.val + 1) = 0 → a.sense = .normal
  senseInverted : fieldAt ws (1 + 9 * i.val + 1) = 1 → a.sense = .inverted
  deadband : a.deadband = fieldAt ws (1 + 9 * i.val + 2)
  gain : a.gain = fieldAt ws (1 + 9 * i.val + 3)
  accel : a.accel = fieldAt ws (1 + 9 * i.val + 4)
  decel : a.decel = fieldAt ws (1 + 9 * i.val + 5)
  dwell : a.dwell = fieldAt ws (1 + 9 * i.val + 6)
  /-- The low byte holds the effect of the positive direction, the high byte that of the negative one. -/
  plusNone : fieldAt ws (1 + 9 * i.val + 7) % 256 = 0 → a.plusEffect = .none
  plusRaises : fieldAt ws (1 + 9 * i.val + 7) % 256 = 1 → a.plusEffect = .raises
  plusLowers : fieldAt ws (1 + 9 * i.val + 7) % 256 = 2 → a.plusEffect = .lowers
  minusNone : fieldAt ws (1 + 9 * i.val + 7) / 256 = 0 → a.minusEffect = .none
  minusRaises : fieldAt ws (1 + 9 * i.val + 7) / 256 = 1 → a.minusEffect = .raises
  minusLowers : fieldAt ws (1 + 9 * i.val + 7) / 256 = 2 → a.minusEffect = .lowers
  roleNone : fieldAt ws (1 + 9 * i.val + 8) = 0 → a.role = .none
  roleLift : fieldAt ws (1 + 9 * i.val + 8) = 1 → a.role = .lift
  roleGrapple : fieldAt ws (1 + 9 * i.val + 8) = 2 → a.role = .grapple

/-- The weigh parameters of a WPT image, word by word by the layout of 8.2. A word without a stated meaning (log
entry 13) is left out. -/
structure WptFields (ws : Image) (p : WeighParams) : Prop where
  triggerOff : fieldAt ws 0 = 0 → p.trigger = .off
  triggerButton : fieldAt ws 0 = 1 → p.trigger = .button
  triggerAuto : fieldAt ws 0 = 2 → p.trigger = .auto
  settleFirst : fieldAt ws 1 = 0 → p.settle = .first
  settleEach : fieldAt ws 1 = 1 → p.settle = .each
  settleDelay : p.settleDelay = fieldAt ws 2
  nSamples : p.nSamples = fieldAt ws 3
  stabilityBand : p.stabilityBand = fieldAt ws 4
  retries : p.retries = fieldAt ws 5
  windowTimeout : p.windowTimeout = fieldAt ws 6
  bandLo : p.bandLo = fieldAt ws 7
  bandHi : p.bandHi = fieldAt ws 8
  closeThreshold : p.closeThreshold = fieldAt ws 9

/-- Which axis record drives a section (R62, R85): that of the one axis whose record names the section, and none
exactly where no axis names it or the FMT is EMPTY. Which of several axes governs a section that they all name is free
(log entry 13), and is left out. -/
structure SectionRouting : Prop where
  emptyMap : ∀ k, sectionAxis none k = none
  unmapped : ∀ ws k, sectionAxis (some ws) k = none ↔ ∀ i, (fmtAxis ws i).drives ≠ some k
  mapped : ∀ ws k i, (fmtAxis ws i).drives = some k → (∀ j, (fmtAxis ws j).drives = some k → j = i) →
    sectionAxis (some ws) k = some (fmtAxis ws i)

/-! ## The record of a completing cycle -/

/-- What a WEIGH cycle hands the Record Unit when it completes with an attempt and the tare offset that stands, field
by field (R122, R123, R130). -/
structure HandedOver (c : Cycle) (k : Kept) (unstable : Bool) (tare : Int) (m : Weighed) : Prop where
  assortment : m.assortment = c.assortment
  mass : tare ≤ k.mean → (m.mass : Int) = ((k.mean - tare) * 10197 + 5000) / 10000
  massClamped : k.mean < tare → m.mass = 0
  reach : m.reach = k.lastR
  sector : m.sector = k.lastSector
  uPeak : m.uPeak = k.uPeak
  samples : m.samples = k.n
  attempts : m.attempts = c.attempt
  unstable : m.unstable = unstable
  clamped : m.clamped = true ↔ k.mean < tare
  staleSlew : m.staleSlew = k.staleSeen
  manual : m.manual = true ↔ c.source = .request

/-! ## The movement of a section at a step -/
/-- The sign of an effective target names the pending direction: a reversal (R90). -/
def Reversal (e : Int) (d : Direction) : Prop :=
  (0 < e ∧ d = .plus) ∨ (e < 0 ∧ d = .minus)

/-- The pending direction while an output stands on the side of `e` (05, 5.1). -/
def pendingBeside (e : Int) : Direction :=
  if 0 < e then .minus else if e < 0 then .plus else .none

/-- How a mapped section with axis record `a` moves toward its effective target `e` in one step, case by case (R88 to
R91). -/
structure SectionMoves (a : AxisRecord) (e : Int) (r r' : Section) : Prop where
  /-- R91. -/
  dwelling : 0 < r.dwell →
    r'.output = 0 ∧ r'.dwell = r.dwell - 1 ∧ r'.pendingDir = (if r.dwell = 1 then .none else r.pendingDir)
  /-- R89: an output equal to its effective target stands. -/
  stands : r.dwell = 0 → e = r.output → r'.output = r.output ∧ r'.dwell = 0 ∧ r'.pendingDir = r.pendingDir
  /-- R88: a start from 0. -/
  starts : r.dwell = 0 → r.output = 0 → e ≠ 0 → ¬ (Reversal e r.pendingDir ∧ 1 ≤ a.dwell) →
    r'.output = e.sign * (min a.accel e.natAbs : Nat) ∧ r'.dwell = 0 ∧
      (r'.output ≠ 0 → r'.pendingDir = pendingBeside e)
  /-- R90: an output that stood at 0 meets a reversal. -/
  held : r.dwell = 0 → r.output = 0 → Reversal e r.pendingDir → 1 ≤ a.dwell →
    r'.output = 0 ∧ r'.dwell = a.dwell ∧ r'.pendingDir = r.pendingDir
  /-- R88: growth on the same side. -/
  grows : r.dwell = 0 → 0 < r.output * e → r.output.natAbs < e.natAbs →
    r'.output = e.sign * (min (r.output.natAbs + a.accel) e.natAbs : Nat) ∧ r'.dwell = 0 ∧
      r'.pendingDir = r.pendingDir
  /-- R89: a fall toward a target on the same side. -/
  falls : r.dwell = 0 → 0 < r.output * e → e.natAbs < r.output.natAbs →
    r'.output = r.output.sign * (max (r.output.natAbs - a.decel) e.natAbs : Nat) ∧ r'.dwell = 0 ∧
      r'.pendingDir = r.pendingDir
  /-- R89: a fall toward 0 that does not reach it. -/
  fallsOn : r.dwell = 0 → r.output ≠ 0 → r.output * e ≤ 0 → a.decel < r.output.natAbs →
    r'.output = r.output.sign * (r.output.natAbs - a.decel : Nat) ∧ r'.dwell = 0 ∧ r'.pendingDir = r.pendingDir
  /-- R89, R90: a fall that reaches 0, with the reversal check at the same step. -/
  reaches : r.dwell = 0 → r.output ≠ 0 → r.output * e ≤ 0 → r.output.natAbs ≤ a.decel →
    r'.output = 0 ∧
      (Reversal e r.pendingDir → 1 ≤ a.dwell → r'.dwell = a.dwell ∧ r'.pendingDir = r.pendingDir) ∧
      (Reversal e r.pendingDir → a.dwell = 0 → r'.dwell = 0 ∧ r'.pendingDir = .none) ∧
      (¬ Reversal e r.pendingDir → r'.dwell = 0 ∧ r'.pendingDir = r.pendingDir)

/-- The lever target of a section lies in a RAISES direction of its axis record (05, 5.1). -/
def InRaises (a : AxisRecord) (x : Int) : Prop :=
  (0 < x ∧ a.plusEffect = .raises) ∨ (x < 0 ∧ a.minusEffect = .raises)

/-- The Limiter stands in LIMIT or FAULT. -/
def LimiterState.Cutting (l : LimiterState) : Prop :=
  l.code = 2 ∨ l.code = 3

/-- One section at a step (R85 to R91): at rest when no axis of the FMT drives it; otherwise the cut flag follows R86,
the effective target R87 with the cut flag as updated, and the section moves by R88 to R91. -/
def SectionSteps (axis : Option AxisRecord) (crane : CraneState) (lim : LimiterState) (warnSpeed : Nat) (target : Int)
    (r r' : Section) : Prop :=
  match axis with
  | none => r'.output = 0 ∧ r'.cut = false ∧ r'.dwell = 0 ∧ r'.pendingDir = .none
  | some a =>
    (¬ InRaises a target → r'.cut = false) ∧
    (InRaises a target → lim.Cutting → r'.cut = true) ∧
    (InRaises a target → ¬ lim.Cutting → r'.cut = r.cut) ∧
    (crane ≠ .active → SectionMoves a 0 r r') ∧
    (crane = .active → r'.cut = true → SectionMoves a 0 r r') ∧
    (crane = .active → r'.cut = false → lim = .warn → InRaises a target →
      SectionMoves a (target.sign * (target.natAbs * warnSpeed / 1000 : Nat)) r r') ∧
    (crane = .active → r'.cut = false → ¬ (lim = .warn ∧ InRaises a target) → SectionMoves a target r r')

/-! ## Invariants -/

/-- The crane and the weigh cycle: an ACTIVE crane has an owner, a closed presence level, a VALID FMT and a Crane Port
that is up (R70, R75, R76, R78); a cycle runs under an ACTIVE crane alone, and with a VALID WPT (R114, R125); the
demand timer runs exactly while there is an owner (R69); the settle timer runs exactly in SETTLING and the window timer
exactly in SAMPLING (R116, R117); the tare offset lies in its range (R124). -/
structure CraneInv (s : State) : Prop where
  active : s.demand.crane = .active →
    s.demand.owner ≠ none ∧ s.demand.presence = .closed ∧ s.tables.fmt.active ≠ none ∧
      s.crane.port.mode = .active ∧ s.crane.port.joined = true
  cycle : ∀ c, s.weigh.phase.cycle? = some c →
    s.demand.crane = .active ∧ s.tables.wpt.active ≠ none ∧ 1 ≤ c.attempt ∧ c.attempt ≤ c.params.retries + 1
  timer : s.demand.timer = none ↔ s.demand.owner = none
  settle : s.weigh.settleTimer ≠ none ↔ ∃ c, s.weigh.phase = .settling c
  window : s.weigh.windowTimer ≠ none ↔ ∃ c, s.weigh.phase = .sampling c
  tare : -500 ≤ s.weigh.tare ∧ s.weigh.tare ≤ 500

/-- The Limiter's record agrees with the latest load result (R49, R53, R56, R58): with none it stands in FAULT with
NO_DATA, with an INVALID one in FAULT with its cause, with one that carries no rating in FAULT with NO_RATING, each
with U 0; with one that carries a U it stands outside FAULT with that U, which is at most 1999. -/
def LimiterInv (s : State) : Prop :=
  match s.lau with
  | none => s.limiter = { state := .fault .noData, u := 0 }
  | some (.invalid .sensor _) => s.limiter = { state := .fault .sensor, u := 0 }
  | some (.invalid .noGeometry _) => s.limiter = { state := .fault .noGeometry, u := 0 }
  | some (.valid v) =>
    match v.rating with
    | none => s.limiter = { state := .fault .noRating, u := 0 }
    | some q => s.limiter.state.code ≠ 3 ∧ s.limiter.u = q.utilisation ∧ q.utilisation ≤ 1999

/-- The number given before a number: 65535 before 1 (R131). -/
def numberBefore (n : Nat) : Nat :=
  if n = 1 then 65535 else n - 1

/-- The last `k` numbers given before the next number, oldest first (R131). -/
def lastNumbers (next : Nat) : Nat → List Nat
  | 0 => []
  | k + 1 => lastNumbers (numberBefore next) k ++ [numberBefore next]

/-- The Record Unit: at most 48 records, whose numbers are the last ones given, in order (R131, R132); the counters of
the unit and of its 16 sorts in their ranges (07). -/
structure RecordInv (u : RecordUnit) : Prop where
  depth : u.queue.length ≤ 48
  next : 1 ≤ u.nextNumber ∧ u.nextNumber ≤ 65535
  numbers : u.queue.map LiftRecord.number = lastNumbers u.nextNumber u.queue.length
  displaced : u.displaced ≤ 255
  sorts : u.tally.length = 16
  ranges : ∀ x ∈ u.tally, x.lifts ≤ 65535 ∧ x.mass ≤ 4294967295

/-- The images of a kind: both have the kind's word count, and a CLEAN shadow holds the active words, or 0 in every
word when the kind is EMPTY (R145). -/
structure KindInv (k : Kind) (x : KindTable) : Prop where
  active : ∀ ws, x.active = some ws → ws.length = k.words
  shadow : x.shadow.length = k.words
  clean : x.dirty = false → x.shadow = cleanWords k x.active

/-- The Table Store: the images of every kind, and a cursor no further than the end of its kind (R145, R146). -/
structure TableInv (t : TableStore) : Prop where
  kinds : ∀ k, KindInv k (t.kind k)
  cursor : t.cursorIndex ≤ t.cursorKind.words

/-- A port's counts: OFF exactly while the transmit error count is beyond 255, the receive error count at most 255, and
a recovery count below 128 that only an OFF port has (R187). -/
structure PortInv (p : Port) : Prop where
  off : p.mode = .off ↔ 255 < p.txErrors
  rx : p.rxErrors ≤ 255
  recovery : p.recovery < 128
  idle : p.mode = .active → p.recovery = 0

/-- The frame in flight on the Cab Port: a response is the oldest of the response FIFO, and each is sent on its
identifier under the node address (R184, R186). -/
def CabPort.FlightOk (c : CabPort) : Prop :=
  match c.flight with
  | some (.response id) => c.responses ≠ [] ∧ id = 0x5D0 + c.na.val
  | some (.notice id _) => id = 0x5E0 + c.na.val
  | none => True

/-- The two transmitters: a frame in flight stands on a port that is up and is sent on its identifier, a response in
flight is the oldest of the response FIFO, and nothing waits at a port that is up with no frame in flight (R100, R179,
R185, R186); the FIFOs hold at most 4 frames (R173, R175); a pending soft reset waits for the newest response (R181).
-/
structure TransmitterInv (s : State) : Prop where
  cabPort : PortInv s.cab.port
  cranePort : PortInv s.crane.port
  requests : s.cab.requests.length ≤ 4
  responses : s.cab.responses.length ≤ 4
  cabFlight : s.cab.flight ≠ none → s.cab.port.up = true
  cabFrame : s.cab.FlightOk
  cabBusy : s.cab.port.up = true → s.cab.flight = none → s.cab.responses = [] ∧ s.mgmt.noticePending = false
  craneFlight : ∀ f, s.crane.flight = some f → s.crane.port.up = true ∧ f.id = 0x2C4
  craneBusy : s.crane.port.up = true → s.crane.flight = none → s.valve.pending = false
  reset : s.mgmt.softResetPending = true →
    ∃ r, s.cab.responses.getLast? = some r ∧ byteAt r 0 = 0x61 ∧ byteAt r 1 = 0

end Sys2Proof.Machine
end

