-- ==== Sys2Proof/Certificates/Slice0/Obligations.lean ====
section
/-! DEFINITION. The statements for the provers. Each docstring names the rules that the statement formalises. -/

open Sys2Proof Sys2Proof.Machine

/-! ## The queue of commands -/

/-- A step takes the command at the front of the queue and runs it with the queue's rest; on an empty queue the block
idles, which is the model's choice (log entry 6). -/
def Obligations.StepRunsFrontCommand : Prop :=
  (∀ (c : Instr) (rest : List Instr) (s : State), s.pending = c :: rest → step s = exec c { s with pending := rest }) ∧
  (∀ s : State, s.pending = [] → step s = .next s)

/-- Every command answers a next state, from every state, and leaves the queue of waiting commands to the sender. That
a command whose event cannot happen in the standing state, or that comes while the part is held in reset, answers a
next state is the model's choice (log entries 1 and 18). -/
def Obligations.EveryCommandAnswersNext : Prop :=
  ∀ (c : Instr) (s : State), ∃ t, exec c s = .next t ∧ t.pending = s.pending

/-! ## Supply and resets -/

/-- R169: at the fall of the supply the part is held in reset, a PERSIST in progress ends with the item under way
spoilt and every other item as it was, and a pending soft reset is removed (R181). Held in reset, the part takes no
command but the restarts and the changes of its lines (00_scope.md, Resets; log entry 18). -/
def Obligations.SupplyFallHoldsInReset : Prop :=
  (∀ s : State, ∃ t, exec .supplyFallsBelowDipThreshold s = .next t ∧
    t.power = .heldInReset ∧ t.tables.persist = .idle ∧
    (∀ item, t.tables.stored.item item = storedAfterFall s item) ∧
    t = { s with
      power := .heldInReset
      tables := { s.tables with persist := .idle, stored := t.tables.stored }
      mgmt := { s.mgmt with softResetPending := false } }) ∧
  (∀ (c : Instr) (s : State), s.power = .heldInReset → (∀ a b, c ≠ .powerOn a b) → (∀ a b, c ≠ .supplyDip a b) →
    c ≠ .presenceLineChange → c ≠ .serviceKeyLineChange → c ≠ .supplyFallsBelowDipThreshold → exec c s = .next s)

/-- POWER_ON and SUPPLY_DIP put every block at its reset value (R16, R20, R56, R82, R95, R105, R127, R142, R162, R171,
R183, R184, R188), from every state. The images and settings are those of `StartUpLoadsTheStore`. That the strap levels
come with the command is the model's choice (log entry 5). -/
def Obligations.RestartResetsEveryBlock : Prop :=
  ∀ (na0 na1 : Bool) (s : State) (c : Instr) (cause : ResetCause),
    (c = .powerOn na0 na1 ∧ cause = .powerOn) ∨ (c = .supplyDip na0 na1 ∧ cause = .supplyDip) →
    ∃ t, exec c s = .next t ∧
      t.power = .running ∧ t.pins = s.pins ∧ t.pending = s.pending ∧ t.freeCount = s.freeCount ∧
      (∀ p, p = t.cab.port ∨ p = t.crane.port →
        p.mode = .active ∧ p.joined = false ∧ p.txErrors = 0 ∧ p.rxErrors = 0 ∧ p.recovery = 0) ∧
      t.cab.na.val = (if na0 then 1 else 0) + (if na1 then 2 else 0) ∧
      t.cab.requests = [] ∧ t.cab.responses = [] ∧ t.cab.flight = none ∧ t.crane.flight = none ∧
      t.scan.scanTimer = some 10 ∧ t.scan.inProgress = none ∧ t.scan.slewTimer = none ∧
      t.scan.slew = { slew := 0, pitch := 0, roll := 0, stale := true } ∧
      (∀ i, t.scan.channels.get i = { count := 0, value := none, outCount := 0, inCount := 0, faulted := false }) ∧
      t.lau = none ∧ t.limiter = { state := .fault .noData, u := 0 } ∧
      t.demand.owner = none ∧ t.demand.crane = .stowed ∧ (∀ k, t.demand.targets.get k = 0) ∧ t.demand.timer = none ∧
      t.demand.weighCab = false ∧ t.demand.weighAux = false ∧ t.demand.presence = s.pins.presenceLine ∧
      t.demand.presenceFilter = none ∧
      t.shaper.stepTimer = some 10 ∧
      (∀ k, t.shaper.sections.get k = { output := 0, cut := false, dwell := 0, pendingDir := .none }) ∧
      t.valve.pending = false ∧
      t.valve.refreshTimer =
        some (match t.tables.fmt.active with
          | none => 100
          | some ws => 10 * fieldAt ws 0) ∧
      t.weigh.phase = .idle ∧ t.weigh.prevGrapple = none ∧ t.weigh.lastCause = .none ∧ t.weigh.settleTimer = none ∧
      t.weigh.windowTimer = none ∧
      t.records.queue = [] ∧ t.records.nextNumber = 1 ∧ t.records.displaced = 0 ∧ t.records.tallyState = .closed ∧
      t.records.tally = List.replicate 16 { lifts := 0, mass := 0 } ∧ t.records.assortment = 0 ∧
      (∀ k, (t.tables.kind k).dirty = false) ∧ t.tables.cursorKind = .fmt ∧ t.tables.cursorIndex = 0 ∧
      t.tables.held = false ∧ t.tables.keyLevel = s.pins.serviceKeyLine ∧ t.tables.keyFilter = none ∧
      t.tables.persist = .idle ∧ t.tables.persistResult = .none ∧ t.tables.failedItems = 0 ∧
      t.mgmt.prepare = false ∧ t.mgmt.flags = 0 ∧ t.mgmt.noticePending = false ∧ t.mgmt.softResetPending = false ∧
      t.mgmt.resetCause = cause ∧ t.mgmt.snapshots = { page0 := none, page1 := none, page2 := none, page3 := none }

/-- R170, R171: at POWER_ON and SUPPLY_DIP each kind becomes VALID with its stored words exactly when their stored sum
is the sum of the words, and EMPTY otherwise; the settings are those of a valid record, and the defaults otherwise. The
store keeps what it held, but for an item under way at the fall of the supply (R169). That a restart implies the fall
of the supply before it, and that an image of another word count than its kind's loads EMPTY, are the model's choices
(log entries 5 and 17). -/
def Obligations.StartUpLoadsTheStore : Prop :=
  ∀ (na0 na1 : Bool) (s : State) (c : Instr), c = .powerOn na0 na1 ∨ c = .supplyDip na0 na1 →
    ∃ t, exec c s = .next t ∧
      (∀ item, t.tables.stored.item item = storedAfterFall s item) ∧
      (∀ k ws, (t.tables.kind k).active = some ws ↔
        ws.length = k.words ∧ ∃ sum, storedAfterFall s k.item = .image ws sum ∧ sum.toNat = wordSum ws) ∧
      (∀ k, (t.tables.kind k).shadow = match (t.tables.kind k).active with
        | some ws => ws
        | none => List.replicate k.words 0) ∧
      (∀ ws sum, storedAfterFall s .settings = .image ws sum → ws.length = 6 → sum.toNat = wordSum ws →
        fieldAt ws 0 ≤ 2 → fieldAt ws 1 < 32 → fieldAt ws 3 < 4096 → -500 ≤ signedFieldAt ws 2 →
        signedFieldAt ws 2 ≤ 500 →
        t.tables.mode.code = fieldAt ws 0 ∧ t.tables.protectSet.toNat = fieldAt ws 1 ∧
          t.weigh.tare = signedFieldAt ws 2 ∧ t.mgmt.mask.toNat = fieldAt ws 3) ∧
      ((∀ ws sum, storedAfterFall s .settings = .image ws sum →
          ¬ (ws.length = 6 ∧ sum.toNat = wordSum ws ∧ fieldAt ws 0 ≤ 2 ∧ fieldAt ws 1 < 32 ∧ fieldAt ws 3 < 4096 ∧
            -500 ≤ signedFieldAt ws 2 ∧ signedFieldAt ws 2 ≤ 500)) →
        t.tables.mode = .isOpen ∧ t.tables.protectSet = 0x0E ∧ t.weigh.tare = 0 ∧ t.mgmt.mask = 0)

/-- R181, R182 and each block's own rule (R17, R20, R56, R83, R96, R106, R128, R143, R162, R172, R188): at the
successful end of the RESET_EXECUTE response every block takes the soft reset and keeps what its rule keeps. That
SOFT_RESET and the end of that response are one moment, which either command names, is the model's choice (log entry
3). That its frames are formed after all of it is the model's choice too (log entry 10). -/
def Obligations.SoftResetTakesPlace : Prop :=
  ∀ (s : State) (c : Instr) (r : List Byte) (more : List (List Byte)) (sentOn : Nat),
    c = .softReset ∨ c = .responseTransmissionEnd → s.power = .running → s.cab.port.mode = .active →
    s.cab.port.joined = true → s.cab.flight = some (.response sentOn) → s.cab.responses = r :: more →
    byteAt r 0 = 0x61 → byteAt r 1 = 0 → s.mgmt.softResetPending = true →
    ∃ u v t, exec c s = .next t ∧
      u = { s with
        cab :=
          { s.cab with
            port := { s.cab.port with txErrors := s.cab.port.txErrors - 1 }
            requests := [], responses := [], flight := none }
        lau := none
        limiter := { state := .fault .noData, u := 0 }
        demand :=
          { s.demand with
            owner := none, crane := .stowed, targets := ⟨0, 0, 0, 0, 0, 0⟩, timer := none, weighCab := false,
            weighAux := false }
        shaper :=
          { s.shaper with
            sections := Six.same { output := 0, cut := false, dwell := 0, pendingDir := .none } }
        tables :=
          { s.tables with
            fmt := { s.tables.fmt with shadow := cleanWords .fmt s.tables.fmt.active, dirty := false }
            cal := { s.tables.cal with shadow := cleanWords .cal s.tables.cal.active, dirty := false }
            bmt := { s.tables.bmt with shadow := cleanWords .bmt s.tables.bmt.active, dirty := false }
            rct := { s.tables.rct with shadow := cleanWords .rct s.tables.rct.active, dirty := false }
            wpt := { s.tables.wpt with shadow := cleanWords .wpt s.tables.wpt.active, dirty := false }
            cursorKind := .fmt, cursorIndex := 0 }
        mgmt :=
          { s.mgmt with
            prepare := false, flags := 0, noticePending := false, resetCause := .soft, softResetPending := false,
            snapshots := { page0 := none, page1 := none, page2 := none, page3 := none } } } ∧
      v = (match s.weigh.phase with
        | .settling _ => cycleAborted .reset u
        | .sampling _ => cycleAborted .reset u
        | .armed => { u with weigh := { u.weigh with phase := .idle, settleTimer := none, windowTimer := none } }
        | .idle => { u with weigh := { u.weigh with settleTimer := none, windowTimer := none } }) ∧
      ((∀ k, (s.shaper.sections.get k).output = 0) → CabStarts v t) ∧
      ((∃ k, (s.shaper.sections.get k).output ≠ 0) → CabStarts (valveRequested v) t)

/-! ## Timers of the Scan Unit -/

/-- R1, R2, R14: an expiry of the scan timer restarts it, and starts a scan with the active images when none is in
progress; when the slew timer expires the slew record becomes stale and keeps its fields, and that timer stays stopped.
-/
def Obligations.ScanUnitTimers : Prop :=
  (∀ s : State, s.power = .running → ∃ t, exec .scanTimerExpiry s = .next t ∧
     t = { s with scan := { s.scan with scanTimer := some 10, inProgress := t.scan.inProgress } } ∧
     (s.scan.inProgress = none → t.scan.inProgress =
       some { cal := s.tables.cal.active, bmt := s.tables.bmt.active, rct := s.tables.rct.active }) ∧
     (∀ fixed, s.scan.inProgress = some fixed → t.scan.inProgress = some fixed)) ∧
  (∀ (s : State) (d : Nat), s.power = .running → s.scan.slewTimer = some d →
     exec .slewTimerExpiry s =
       .next { s with scan := { s.scan with slew := { s.scan.slew with stale := true }, slewTimer := none } })

/-! ## Scan completion -/

/-- R4 to R8: at a scan completion under a VALID CAL each channel record gets its count, its engineering value and its
window counting; under an EMPTY CAL the counts are written, the values become absent and the window counting is held,
and the load result is INVALID with NO_GEOMETRY, which puts the Limiter in FAULT with U 0 (R21, R49, R53). Either way
no scan is in progress afterwards. The value of a span of 0 is free (log entry 14), and the statement leaves it out.
That the six counts come with the command is the model's choice (log entry 23). -/
def Obligations.ScanWritesChannelRecords : Prop :=
  (∀ (s : State) (counts : Six (BitVec 12)) (fixed : FixedTables) (cal : Image),
     s.power = .running → s.scan.inProgress = some fixed → fixed.cal = some cal →
     ∃ t, exec (.scanCompletion counts) s = .next t ∧
       t.scan = { s.scan with channels := t.scan.channels, inProgress := none } ∧
       ∀ i : Fin 6,
         let c := s.scan.channels.get i
         let d := t.scan.channels.get i
         let count : Int := (counts.get i).toNat
         let coarse := (counts.get i).toNat / 16
         let z : Int := fieldAt cal (6 * i.val)
         let f : Int := fieldAt cal (6 * i.val + 1)
         let lo := signedFieldAt cal (6 * i.val + 2)
         let hi := signedFieldAt cal (6 * i.val + 3)
         d.count = counts.get i ∧
         (lo ≤ hi → f ≠ z → d.value = some (max lo (min hi (lo + Int.tdiv ((count - z) * (hi - lo)) (f - z))))) ∧
         (coarse < fieldAt cal (6 * i.val + 4) ∨ fieldAt cal (6 * i.val + 5) < coarse →
           d.inCount = 0 ∧ d.outCount = min (c.outCount + 1) 3 ∧
           (d.faulted = true ↔ c.faulted = true ∨ c.outCount = 2)) ∧
         (fieldAt cal (6 * i.val + 4) ≤ coarse → coarse ≤ fieldAt cal (6 * i.val + 5) →
           d.outCount = 0 ∧ d.inCount = min (c.inCount + 1) 3 ∧
           (d.faulted = true ↔ c.faulted = true ∧ c.inCount ≠ 2))) ∧
  (∀ (s : State) (counts : Six (BitVec 12)) (fixed : FixedTables),
     s.power = .running → s.scan.inProgress = some fixed → fixed.cal = none →
     ∃ t, exec (.scanCompletion counts) s = .next t ∧
       t.scan.inProgress = none ∧ t.scan.slew = s.scan.slew ∧
       (∀ i, t.scan.channels.get i = { s.scan.channels.get i with count := counts.get i, value := none }) ∧
       t.lau = some (.invalid .noGeometry s.scan.slew.stale) ∧
       t.limiter = { state := .fault .noGeometry, u := 0 })

/-- R10, R11, R19, R37, R48, R54, R107: a scan completion forms a load result from the scan's own record (its values,
the validity of its channels, the images fixed at its start, the slew record as it stands). It writes the channel
records, raises SENSOR when some channel's fault changed at that scan, and replaces the load result; then the Limiter
takes that result under the fixed RCT (`limiterTakes`, whose flags `LimiterRaisesItsEntryFlag` states), the Weigh Unit
takes it (`weighTakes`, of `SamplesAndStability` and `AutoArmsDisarmsAndFires`), and a free Cab Port starts what waits.
Nothing outside the Scan Unit, the LAU, the Limiter, the Weigh Unit, the Record Unit, the notice flags with their
pending flag and the Cab Port's transmitter changes. R7, R8, R9: the SENSOR flag is set afterwards exactly when it was
set or some channel's fault changed. That the one notice of a completion is formed at its end is the model's choice
(log entry 10). -/
def Obligations.ScanHandsOverOneRecord : Prop :=
  (∀ (s : State) (counts : Six (BitVec 12)) (fixed : FixedTables),
     s.power = .running → s.scan.inProgress = some fixed →
     ∃ t r, exec (.scanCompletion counts) s = .next t ∧
       t.lau = some (loadResultOf r) ∧ t.limiter = s.limiter.evaluate fixed.rct (loadResultOf r) ∧
       r.bmt = fixed.bmt ∧ r.rct = fixed.rct ∧ r.slew = s.scan.slew ∧
       (r.values = none ↔ fixed.cal = none) ∧
       (∀ e, r.values = some e →
         (t.scan.channels.get 0).value = some e.pPiston ∧ (t.scan.channels.get 1).value = some e.pRod ∧
         (t.scan.channels.get 2).value = some e.angBoom ∧ (t.scan.channels.get 3).value = some e.angJib ∧
         (t.scan.channels.get 4).value = some e.ext) ∧
       (∀ i, r.valid.get i = true ↔
         (t.scan.channels.get i).faulted = false ∧ (t.scan.channels.get 5).faulted = false) ∧
       (r.supplyFaulted = true ↔ (t.scan.channels.get 5).faulted = true) ∧
       t = { s with
         scan := t.scan, lau := t.lau, limiter := t.limiter, weigh := t.weigh, records := t.records
         mgmt := { s.mgmt with flags := t.mgmt.flags, noticePending := t.mgmt.noticePending }
         cab := { s.cab with flight := t.cab.flight } } ∧
       (let u := { s with
          scan := { s.scan with channels := t.scan.channels, inProgress := none }, lau := some (loadResultOf r) }
        let offered := fun x : State => weighTakes (loadResultOf r) (limiterTakes fixed.rct (loadResultOf r) x)
        ((∃ i, (t.scan.channels.get i).faulted ≠ (s.scan.channels.get i).faulted) →
          CabStarts (offered (raise .sensor u)) t) ∧
        ((∀ i, (t.scan.channels.get i).faulted = (s.scan.channels.get i).faulted) → CabStarts (offered u) t))) ∧
  (∀ (s : State) (counts : Six (BitVec 12)) (fixed : FixedTables),
     s.power = .running → s.scan.inProgress = some fixed →
     ∃ t, exec (.scanCompletion counts) s = .next t ∧
       (t.mgmt.flags.getLsbD 4 = true ↔
         s.mgmt.flags.getLsbD 4 = true ∨ ∃ i, (t.scan.channels.get i).faulted ≠ (s.scan.channels.get i).faulted))

/-! ## The slew record -/

/-- R12, R13: a slew/tilt frame received by a Crane Port that is up is discarded when it is short, reports no sensor OK
or gives an angle of 3600 or more, and otherwise written to the slew record with pitch and roll clamped, the stale flag
cleared and the slew timer restarted. Either way its reception lowers the receive error count (R187); that a discarded
frame counts as a correct reception is the model's choice (log entry 19). A Crane Port that is OFF or has not joined
receives nothing (R15, R187, R188); that the command then changes nothing is the model's choice (log entry 1). -/
def Obligations.SlewFrameAcceptedOrDiscarded : Prop :=
  (∀ (s : State) (data : List Byte), s.crane.port.mode = .off ∨ s.crane.port.joined = false →
    exec (.slewTiltFrame data) s = .next s) ∧
  ∀ (s : State) (data : List Byte), s.power = .running → s.crane.port.mode = .active → s.crane.port.joined = true →
    ∃ u t, exec (.slewTiltFrame data) s = .next t ∧
      u = { s with
        crane := { s.crane with port := { s.crane.port with rxErrors := s.crane.port.rxErrors - 1 } } } ∧
      ((data.length < 7 ∨ (byteAt data 6).toNat % 2 = 0 ∨
          3600 ≤ (byteAt data 0).toNat + 256 * (byteAt data 1).toNat) → t = u) ∧
      (7 ≤ data.length → (byteAt data 6).toNat % 2 = 1 →
        (byteAt data 0).toNat + 256 * (byteAt data 1).toNat < 3600 →
        t = { u with
          scan :=
            { s.scan with
              slew :=
                { slew := (byteAt data 0).toNat + 256 * (byteAt data 1).toNat
                  pitch := max (-300) (min 300 (BitVec.ofNat 16
                    ((byteAt data 2).toNat + 256 * (byteAt data 3).toNat)).toInt)
                  roll := max (-300) (min 300 (BitVec.ofNat 16
                    ((byteAt data 4).toNat + 256 * (byteAt data 5).toNat)).toInt)
                  stale := false }
              slewTimer := some 200 } })

/-! ## The load result -/

/-- R21: the table of conditions under which a load result is INVALID, with the cause of each and their precedence. -/
def Obligations.LoadResultValidity : Prop :=
  ∀ r : ScanRecord,
    (r.values = none ∨ r.bmt = none → loadResultOf r = .invalid .noGeometry r.slew.stale) ∧
    (∀ v bmt, r.values = some v → r.bmt = some bmt →
      (r.supplyFaulted = true ∨ (∃ i : Fin 4, r.valid.get (i.castLE (by omega)) = false) ∨
          (r.valid.get 4 = false ∧ 0 < fieldAt bmt 5) →
        loadResultOf r = .invalid .sensor r.slew.stale) ∧
      (r.supplyFaulted = false → (∀ i : Fin 4, r.valid.get (i.castLE (by omega)) = true) →
          (r.valid.get 4 = true ∨ fieldAt bmt 5 = 0) →
        ∃ load, loadResultOf r = .valid load ∧ load.slewStale = r.slew.stale))

/-- R22 to R36: every stage of a VALID result by its formula, whatever the engineering values and the images: the
values as used, F, r, M_lift, the arms, M_dead, W, R, the band and the rating. The cosine list is read at the magnitude
of the angle and at 900 beyond it, and holds the entries that R26 prints; the others are the model's working of R26's
formula (log entry 27). Under a BMT that passes field validation every stage lies in the range that 2.2 gives it. -/
def Obligations.LoadStagesLieInTheirRanges : Prop :=
  (∀ (v : Engineering) (bmt : Image) (rct : Option Image) (slew : SlewRecord),
    let r := validLoad v bmt rct slew
    let w := fieldAt bmt
    let h := fun (length : Nat) (a : Int) => length * cosineAt a / 16384
    r.pPist = max 0 (min 4000 v.pPiston) ∧ r.pRod = max 0 (min 4000 v.pRod) ∧
    (r.ext : Int) = max 0 (min (w 5 : Int) v.ext) ∧ r.alpha = v.angBoom ∧ r.beta = v.angJib ∧
    r.force = Int.tdiv (r.pPist * w 3 - r.pRod * w 4) 1000 ∧ r.lever = leverArm bmt r.alpha ∧
    r.liftMoment = max (-2000000000) (min 2000000000 (r.force * r.lever)) ∧
    r.boomArm = h (w 1) r.alpha ∧ r.tipArm = r.boomArm + h (w 2 + r.ext) r.beta ∧
    r.deadMoment = min 2000000000
      (w 6 * h (w 7) r.alpha + w 8 * (r.boomArm + h (w 9) r.beta) +
        (if 0 < w 5 then w 10 * (r.boomArm + h (w 11 + r.ext) r.beta) else 0) + w 12 * r.tipArm) ∧
    (r.tipArm < 500 → r.weight = none) ∧
    (500 ≤ r.tipArm → r.weight =
      some (max (-32768) (min 32767 (Int.tdiv (r.liftMoment - r.deadMoment) r.tipArm)))) ∧
    r.reach = w 0 + r.tipArm ∧ r.band = min (r.reach / 250) 40 ∧
    (rct = none → r.rating = none) ∧
    (∀ ws, rct = some ws → r.rating = some (ratingOf ws slew r.band r.weight)) ∧ r.slewStale = slew.stale) ∧
  (∀ a : Int, cosineAt (-a) = cosineAt a ∧ (900 ≤ a → cosineAt a = 0)) ∧
  [0, 100, 215, 300, 450, 600, 860, 880, 900].map cosineAt = [16384, 16135, 15244, 14189, 11585, 8192, 1143, 572, 0] ∧
  (∀ (v : Engineering) (bmt : Image) (rct : Option Image) (slew : SlewRecord), imageOk .bmt bmt = true →
    let r := validLoad v bmt rct slew
    (0 ≤ r.pPist ∧ r.pPist ≤ 4000) ∧ (0 ≤ r.pRod ∧ r.pRod ≤ 4000) ∧ r.ext ≤ fieldAt bmt 5 ∧
    (-262140 ≤ r.force ∧ r.force ≤ 262140) ∧ (50 ≤ r.lever ∧ r.lever ≤ 2000) ∧
    (r.liftMoment = r.force * r.lever) ∧ (-2000000000 ≤ r.liftMoment ∧ r.liftMoment ≤ 2000000000) ∧
    r.boomArm ≤ 20000 ∧ r.tipArm ≤ 60000 ∧ r.deadMoment ≤ 2000000000 ∧
    (r.weight = none ↔ r.tipArm < 500) ∧ (∀ w, r.weight = some w → -32768 ≤ w ∧ w ≤ 32767) ∧
    r.reach = fieldAt bmt 0 + r.tipArm ∧ r.band = min (r.reach / 250) 40 ∧
    (∀ q, r.rating = some q → q.utilisation ≤ 1999))

/-- R24: the lever arm lies between the two lever points around the clamped elevation, is the point itself at a
multiple of 40, and is held at the end points beyond the ends of the curve. -/
def Obligations.LeverArmFollowsTheCurve : Prop :=
  ∀ (bmt : Image) (alpha : Int),
    (alpha ≤ -400 → leverArm bmt alpha = fieldAt bmt 13) ∧
    (880 ≤ alpha → leverArm bmt alpha = fieldAt bmt 45) ∧
    (∀ i : Nat, i < 32 → -400 + 40 * (i : Int) ≤ alpha → alpha < -400 + 40 * (i + 1 : Int) →
      let a : Int := fieldAt bmt (13 + i)
      let b : Int := fieldAt bmt (14 + i)
      min a b ≤ leverArm bmt alpha ∧ leverArm bmt alpha ≤ max a b ∧
      leverArm bmt alpha = a + Int.tdiv ((b - a) * (alpha + 400 - 40 * i)) 40)

/-- R34: under a chart whose starts ascend from 0 within the count, the sector is the last one within the count whose
start is at or below the slew angle. R35, R43, R44, R45: with the slew record stale, the sector is reported as 255, the
tilt is the stale tilt, and the effective rating is the least over the sectors within the count, each at its own derate
and its own capacity. R42, R43, R44: with the slew record fresh, the tilt toward load is the pitch (tilt axis 0) or
roll (1) with its sign kept (tilt sign 0) or inverted (1) and clamped to 0..300, and the effective rating is the
capacity of the chosen sector at the band under the derate factor at that tilt, which is 0 where it would be negative.
In both cases U is formed from W and that rating (R46). -/
def Obligations.SectorAndStaleRating : Prop :=
  (∀ (rct : Image) (slew : Nat), 1 ≤ fieldAt rct 0 → fieldAt rct 0 ≤ 8 → fieldAt rct 6 = 0 →
     (∀ s, 1 ≤ s → s < fieldAt rct 0 → fieldAt rct (6 + 4 * (s - 1)) < fieldAt rct (6 + 4 * s)) →
     sectorOf rct slew < fieldAt rct 0 ∧ fieldAt rct (6 + 4 * sectorOf rct slew) ≤ slew ∧
     ∀ s, sectorOf rct slew < s → s < fieldAt rct 0 → slew < fieldAt rct (6 + 4 * s)) ∧
  (∀ (rct : Image) (slew : SlewRecord) (band : Nat) (w : Option Int),
     slew.stale = true → 1 ≤ fieldAt rct 0 → fieldAt rct 0 ≤ 8 →
     let q := ratingOf rct slew band w
     let rating := fun s : Nat =>
       fieldAt rct (38 + 41 * s + band) * (1000 - fieldAt rct (9 + 4 * s) * fieldAt rct 5 / 10) / 1000
     q.sector = 255 ∧ q.tilt = fieldAt rct 5 ∧ q.utilisation = utilisationOf w q.effective ∧
     (∀ s, s < fieldAt rct 0 → q.effective ≤ rating s) ∧ (∃ s, s < fieldAt rct 0 ∧ q.effective = rating s)) ∧
  (∀ (rct : Image) (slew : SlewRecord) (band : Nat) (w : Option Int), slew.stale = false →
     let q := ratingOf rct slew band w
     let s := sectorOf rct slew.slew
     let k := fieldAt rct (9 + 4 * s)
     q.sector = s ∧ q.utilisation = utilisationOf w q.effective ∧
     (fieldAt rct (7 + 4 * s) = 0 → fieldAt rct (8 + 4 * s) = 0 → (q.tilt : Int) = max 0 (min 300 slew.pitch)) ∧
     (fieldAt rct (7 + 4 * s) = 0 → fieldAt rct (8 + 4 * s) = 1 → (q.tilt : Int) = max 0 (min 300 (-slew.pitch))) ∧
     (fieldAt rct (7 + 4 * s) = 1 → fieldAt rct (8 + 4 * s) = 0 → (q.tilt : Int) = max 0 (min 300 slew.roll)) ∧
     (fieldAt rct (7 + 4 * s) = 1 → fieldAt rct (8 + 4 * s) = 1 → (q.tilt : Int) = max 0 (min 300 (-slew.roll))) ∧
     (1000 ≤ k * q.tilt / 10 → q.effective = 0) ∧
     (k * q.tilt / 10 ≤ 1000 →
       q.effective = fieldAt rct (38 + 41 * s + band) * (1000 - k * q.tilt / 10) / 1000))

/-- R46: the cases of the utilisation in their order, and its bound. -/
def Obligations.UtilisationByFirstCase : Prop :=
  (∀ e, utilisationOf none e = 0) ∧
  (∀ w, utilisationOf (some w) 0 = 1999) ∧
  (∀ w e, 0 < e → w ≤ 0 → utilisationOf (some w) e = 0) ∧
  (∀ w e : Nat, 0 < e → 0 < w → utilisationOf (some w) e = min (1000 * w / e) 1999) ∧
  (∀ w e, utilisationOf w e ≤ 1999)

/-! ## The Limiter -/

/-- R49, R50, R51, R52, R53: one evaluation, by the state it starts from. Where the thresholds of a loaded image do not
nest, a U may fall under the first and the last row of a table; that the next state is then that of one of the two rows,
and which one is free, is the model's choice (log entry 32). -/
def Obligations.LimiterEvaluation : Prop :=
  ∀ (l : Limiter) (rct : Option Image) (r : LoadResult),
    (∀ stale, r = .invalid .sensor stale → l.evaluate rct r = { state := .fault .sensor, u := 0 }) ∧
    (∀ stale, r = .invalid .noGeometry stale → l.evaluate rct r = { state := .fault .noGeometry, u := 0 }) ∧
    (∀ v, r = .valid v → v.rating = none → l.evaluate rct r = { state := .fault .noRating, u := 0 }) ∧
    (∀ v q ws, r = .valid v → v.rating = some q → rct = some ws →
      let u := q.utilisation
      let m := l.evaluate rct r
      m.u = u ∧
      (l.state ≠ .limit →
        (fieldAt ws 2 ≤ u → fieldAt ws 1 ≤ u → m.state = .limit) ∧
        (fieldAt ws 2 ≤ u → u < fieldAt ws 1 → m.state = .limit ∨ m.state = .clear) ∧
        (fieldAt ws 1 ≤ u → u < fieldAt ws 2 → m.state = .warn) ∧
        (u < fieldAt ws 1 → u < fieldAt ws 2 → m.state = .clear)) ∧
      (l.state = .limit →
        (fieldAt ws 3 ≤ u → fieldAt ws 1 ≤ u → m.state = .limit) ∧
        (fieldAt ws 3 ≤ u → u < fieldAt ws 1 → m.state = .limit ∨ m.state = .clear) ∧
        (u < fieldAt ws 3 → fieldAt ws 1 ≤ u → m.state = .warn) ∧
        (u < fieldAt ws 3 → u < fieldAt ws 1 → m.state = .clear)))

/-- R54: an evaluation that changes the Limiter's state raises the flag of the state entered, and one that leaves it as
it was, a FAULT whose cause is replaced among them, raises none. Nothing else of the part changes. -/
def Obligations.LimiterRaisesItsEntryFlag : Prop :=
  ∀ (s : State) (rct : Option Image) (r : LoadResult),
    let m := s.limiter.evaluate rct r
    let t := limiterTakes rct r s
    (s.limiter.state.code = m.state.code → t = { s with limiter := m }) ∧
    (s.limiter.state.code ≠ m.state.code →
      (m.state = .limit → t = raise .limit { s with limiter := m }) ∧
      (m.state = .warn → t = raise .warn { s with limiter := m }) ∧
      (m.state = .clear → t = raise .cleared { s with limiter := m }) ∧
      (m.state.code = 3 → t = raise .fault { s with limiter := m }))

/-! ## Demand frames -/

/-- R60, R62, R63: the axis value of a byte, axis by axis; the lever target of an axis value, which lies within the
gain and reaches it at full lever travel; and neutrality, for which every mapped axis lies within its deadband, so that
every target is 0. R62, R64, R85: the target of a section is the lever target of the one axis that names it, at that
axis's value, and 0 where none does; the axis records are those of the layout of 8.2. Where several axes name one
section, and where a word has no stated meaning, the reading is free (log entry 13), and the statement leaves it out.
-/
def Obligations.LeverTargetsAndNeutrality : Prop :=
  (∀ b : Byte, axisValue b = 10 * max (-100) (min 100 b.toInt)) ∧
  (∀ (data : List Byte) (i : Fin 6), (axisValues data).get i = axisValue (byteAt data i.val)) ∧
  (∀ (ws : Image) (i : Fin 6), FmtFields ws i (fmtAxis ws i)) ∧ SectionRouting ∧
  (∀ (ws : Image) (v : Six Int) (k : Fin 6),
    ((∀ i, (fmtAxis ws i).drives ≠ some k) → (leverTargets (some ws) v).get k = 0) ∧
    (∀ i, (fmtAxis ws i).drives = some k → (∀ j, (fmtAxis ws j).drives = some k → j = i) →
      (leverTargets (some ws) v).get k = leverTarget (fmtAxis ws i) (v.get i))) ∧
  (∀ (a : AxisRecord) (v : Int), (v.natAbs ≤ a.deadband → leverTarget a v = 0) ∧
    (a.deadband < v.natAbs → (leverTarget a v).natAbs = (v.natAbs - a.deadband) * a.gain / (1000 - a.deadband)) ∧
    (0 < leverTarget a v → (0 < v ↔ a.sense = .normal)) ∧ (leverTarget a v < 0 → (v < 0 ↔ a.sense = .normal)) ∧
    (a.deadband < 1000 → v.natAbs ≤ 1000 → (leverTarget a v).natAbs ≤ a.gain) ∧
    (a.deadband < 1000 → v.natAbs = 1000 → (leverTarget a v).natAbs = a.gain)) ∧
  (∀ v, isNeutral none v = true ∧ ∀ k, (leverTargets none v).get k = 0) ∧
  (∀ (ws : Image) (v : Six Int),
    (isNeutral (some ws) v = true ↔
      ∀ i, (fmtAxis ws i).drives ≠ none → (v.get i).natAbs ≤ (fmtAxis ws i).deadband) ∧
    (isNeutral (some ws) v = true → ∀ k, (leverTargets (some ws) v).get k = 0))

/-- R64, R69, R75, R81, R109: an owner frame writes the targets, its neutrality and the restarted demand timer, makes a
READY crane ACTIVE when it is neutral with presence closed, an FMT VALID and the Crane Port up, and updates the
previous WEIGH of its source; a rising edge of WEIGH starts a cycle in mode BUTTON, in IDLE, with the crane ACTIVE. The
attempt fields of the cycle that starts are the model's reading (log entry 24). -/
def Obligations.OwnerFrameIsTakenWhole : Prop :=
  ∀ (s : State) (src : DemandSource) (data : List Byte) (o : Ownership),
    s.power = .running → s.cab.port.mode = .active → s.cab.port.joined = true → 7 ≤ data.length →
    s.demand.owner = some o → o.source = src →
    ∃ u v t, exec (.demandFrame src data) s = .next t ∧
      u = { s with
        cab := { s.cab with port := { s.cab.port with rxErrors := s.cab.port.rxErrors - 1 } }
        demand :=
          { s.demand with
            owner := some { source := src, neutral := isNeutral s.tables.fmt.active (axisValues data) }
            crane := u.demand.crane
            targets := leverTargets s.tables.fmt.active (axisValues data)
            timer := some 150
            weighCab := if src = .cab then (byteAt data 6).getLsbD 1 else s.demand.weighCab
            weighAux := if src = .aux then (byteAt data 6).getLsbD 1 else s.demand.weighAux } } ∧
      (s.demand.crane = .ready ∧ isNeutral s.tables.fmt.active (axisValues data) = true ∧
          s.demand.presence = .closed ∧ s.tables.fmt.active ≠ none ∧ s.crane.port.mode = .active ∧
          s.crane.port.joined = true →
        u.demand.crane = .active) ∧
      (¬ (s.demand.crane = .ready ∧ isNeutral s.tables.fmt.active (axisValues data) = true ∧
          s.demand.presence = .closed ∧ s.tables.fmt.active ≠ none ∧ s.crane.port.mode = .active ∧
          s.crane.port.joined = true) →
        u.demand.crane = s.demand.crane) ∧
      (∀ ws, s.demand.prevWeigh src = false → (byteAt data 6).getLsbD 1 = true → s.tables.wpt.active = some ws →
        (wptParams ws).trigger = .button → s.weigh.phase = .idle → u.demand.crane = .active →
        v = { u with
          weigh :=
            startCycle .weigh .button (wptParams ws) s.records.assortment s.scan.inProgress.isSome s.weigh }) ∧
      (s.demand.prevWeigh src = true ∨ (byteAt data 6).getLsbD 1 = false ∨ s.tables.wpt.active = none ∨
          (∃ ws, s.tables.wpt.active = some ws ∧ (wptParams ws).trigger ≠ .button) ∨ s.weigh.phase ≠ .idle ∨
          u.demand.crane ≠ .active →
        v = u) ∧
      CabStarts v t

/-- R65, R66, R125: a TAKE from a source that is not the owner is granted with no owner or with a neutral owner. An
ACTIVE crane becomes READY, which aborts a running cycle; OWNER is raised; and the frame is the first owner frame of
its source, which makes no READY crane ACTIVE and no WEIGH edge. That the one notice for WEIGH_FAILED and OWNER raised
in one step is formed at the end of the step is the model's choice (log entry 10). -/
def Obligations.GrantedTakeGoesThroughReady : Prop :=
  ∀ (s : State) (src : DemandSource) (data : List Byte),
    s.power = .running → s.cab.port.mode = .active → s.cab.port.joined = true → 7 ≤ data.length →
    (byteAt data 6).getLsbD 0 = true →
    (s.demand.owner = none ∨ ∃ o, s.demand.owner = some o ∧ o.source ≠ src ∧ o.neutral = true) →
    ∃ u w t, exec (.demandFrame src data) s = .next t ∧
      u = raise .owner (activeSentToReady
        { s with cab := { s.cab with port := { s.cab.port with rxErrors := s.cab.port.rxErrors - 1 } } }) ∧
      w = { u with
        demand :=
          { u.demand with
            owner := some { source := src, neutral := isNeutral s.tables.fmt.active (axisValues data) }
            targets := leverTargets s.tables.fmt.active (axisValues data)
            timer := some 150
            weighCab := if src = .cab then (byteAt data 6).getLsbD 1 else s.demand.weighCab
            weighAux := if src = .aux then (byteAt data 6).getLsbD 1 else s.demand.weighAux } } ∧
      CabStarts w t

/-- R59, R65, R68: a frame of fewer than 7 bytes is ignored, and a frame of a source that is not the owner whose TAKE
is clear or refused is dropped. That such a frame still counts as a correct reception, which lowers the receive error
count, is the model's choice (log entry 19). A Cab Port that is OFF or has not joined receives nothing (R187, R188);
that the command then changes nothing is the model's choice (log entry 1). -/
def Obligations.OtherDemandFramesAreDropped : Prop :=
  (∀ (s : State) (src : DemandSource) (data : List Byte), s.cab.port.mode = .off ∨ s.cab.port.joined = false →
    exec (.demandFrame src data) s = .next s) ∧
  ∀ (s : State) (src : DemandSource) (data : List Byte),
    s.power = .running → s.cab.port.mode = .active → s.cab.port.joined = true →
    ∃ u t, exec (.demandFrame src data) s = .next t ∧
      u = { s with cab := { s.cab with port := { s.cab.port with rxErrors := s.cab.port.rxErrors - 1 } } } ∧
      (data.length < 7 → t = u) ∧
      (7 ≤ data.length → (∀ o, s.demand.owner = some o → o.source ≠ src) →
        ((byteAt data 6).getLsbD 0 = false ∨ ∃ o, s.demand.owner = some o ∧ o.neutral = false) → CabStarts u t)

/-- R70, R125: at the expiry of the demand timer the owner becomes NONE, the targets 0, an ACTIVE crane READY with a
running cycle aborted, DEMAND_LOST is raised, and the timer stays stopped. That the one notice for WEIGH_FAILED and
DEMAND_LOST raised in one step is formed at the end of the step is the model's choice (log entry 10). -/
def Obligations.DemandTimerEndsOwnership : Prop :=
  ∀ (s : State) (d : Nat), s.power = .running → s.demand.timer = some d →
    ∃ t, exec .demandTimerExpiry s = .next t ∧
      CabStarts
        (raise .demandLost (activeSentToReady
          { s with demand := { s.demand with owner := none, targets := ⟨0, 0, 0, 0, 0, 0⟩, timer := none } }))
        t

/-! ## Lines and levels -/

/-- R72, R163: a change of a line restarts its filter of 20 ms, and stops it where the line has reverted to the
filtered level; where a line has stood at its new level, the presence level closes and sends a HELD crane to READY
(R77), and the key level becomes the line's, in both directions; neither is an event for another block. That the line
itself is outside the part, and that each change command toggles it in every state of the part, is the model's choice
(log entry 9). -/
def Obligations.LinesAndFilteredLevels : Prop :=
  (∀ s : State, ∃ t u, exec .presenceLineChange s = .next t ∧ exec .serviceKeyLineChange s = .next u ∧
     t = { s with
       pins := { s.pins with presenceLine := t.pins.presenceLine }
       demand := { s.demand with presenceFilter := t.demand.presenceFilter } } ∧
     t.pins.presenceLine ≠ s.pins.presenceLine ∧
     (t.pins.presenceLine ≠ s.demand.presence → t.demand.presenceFilter = some 20) ∧
     (t.pins.presenceLine = s.demand.presence → t.demand.presenceFilter = none) ∧
     u = { s with
       pins := { s.pins with serviceKeyLine := u.pins.serviceKeyLine }
       tables := { s.tables with keyFilter := u.tables.keyFilter } } ∧
     u.pins.serviceKeyLine ≠ s.pins.serviceKeyLine ∧
     (u.pins.serviceKeyLine ≠ s.tables.keyLevel → u.tables.keyFilter = some 20) ∧
     (u.pins.serviceKeyLine = s.tables.keyLevel → u.tables.keyFilter = none)) ∧
  (∀ s : State, s.power = .running →
     (s.demand.presence = .opened → s.pins.presenceLine = .closed →
       ∃ t, exec .presenceCloses s = .next t ∧
         t = { s with
           demand := { s.demand with presence := .closed, presenceFilter := none, crane := t.demand.crane } } ∧
         (s.demand.crane = .held → t.demand.crane = .ready) ∧
         (s.demand.crane ≠ .held → t.demand.crane = s.demand.crane)) ∧
     (s.tables.keyLevel ≠ s.pins.serviceKeyLine →
       exec .keyLevelChange s =
         .next { s with tables := { s.tables with keyLevel := s.pins.serviceKeyLine, keyFilter := none } }))

/-- R72, R76, R94, R99: at PRESENCE opens a READY or ACTIVE crane becomes HELD, every mapped section with a non-zero
output is set to 0 with its dwell loaded, and a valve frame is requested whatever the outputs were. That an unmapped
section keeps its output until the next step (log entry 26), and that the frames which the step starts are formed after
all of it (log entry 10), are the model's choices. The section's axis is that of the one axis record that names it
(R85). -/
def Obligations.PresenceOpensHoldsAndZeroes : Prop :=
  SectionRouting ∧
  ∀ s : State, s.power = .running → s.demand.presence = .closed → s.pins.presenceLine = .opened →
    ∃ u v t, exec .presenceOpens s = .next t ∧
      u = (let r := { s with demand := { s.demand with presence := .opened, presenceFilter := none } }
        if s.demand.crane = .ready ∨ s.demand.crane = .active then craneMoved .held r else r) ∧
      v = { u with shaper := { s.shaper with sections := v.shaper.sections } } ∧
      (∀ k, let r := s.shaper.sections.get k
        let r' := v.shaper.sections.get k
        (sectionAxis s.tables.fmt.active k = none ∨ r.output = 0 → r' = r) ∧
        (∀ a, sectionAxis s.tables.fmt.active k = some a → r.output ≠ 0 →
          r'.output = 0 ∧ r'.cut = r.cut ∧ r'.dwell = a.dwell ∧ (a.dwell = 0 → r'.pendingDir = .none) ∧
            (a.dwell ≠ 0 → r'.pendingDir = r.pendingDir))) ∧
      CabStarts (valveRequested v) t

/-! ## DEPLOY and STOW -/

/-- R73, R74, R176: DEPLOY takes a STOWED crane to READY or HELD by the presence level and refuses every other state
with STATE; STOW takes every state to STOWED, and leaving ACTIVE aborts a running cycle (R125). Where a STOW brings
both a response and a notice to a free port, either may start: a free choice (log entry 11), formed at the end of the
step (log entry 10). -/
def Obligations.DeployAndStow : Prop :=
  ∀ (s : State) (frame : List Byte) (rest : List (List Byte)),
    (Serving (some .deploy) s frame rest → ∃ t, exec .deploy s = .next t ∧
      (s.demand.crane = .stowed → s.demand.presence = .closed →
        CabStarts (answered frame rest 0 [1] { s with demand := { s.demand with crane := .ready } }) t) ∧
      (s.demand.crane = .stowed → s.demand.presence = .opened →
        CabStarts (answered frame rest 0 [3] { s with demand := { s.demand with crane := .held } }) t) ∧
      (s.demand.crane ≠ .stowed → CabStarts (answered frame rest 3 [] s) t)) ∧
    (Serving (some .stow) s frame rest → ∃ t, exec .stow s = .next t ∧
      CabAnswers s (answered frame rest 0 [0] (craneMoved .stowed s)) t)

/-! ## Sections and valve frames -/

/-- R84 to R92, R99, R100: a step moves every section by its own rules from the lever targets, the crane state, the
Limiter's state and the active FMT and RCT as they stand; it requests a valve frame exactly when some output changed,
and changes nothing else. The axis of a section is the one axis of the active FMT whose record names it, and it has
none exactly where none does (R85). -/
def Obligations.StepMovesSectionsAndRequests : Prop :=
  SectionRouting ∧
  ∀ s : State, s.power = .running → ∃ u t, exec .shaperStep s = .next t ∧
    u = { s with shaper := { stepTimer := some 10, sections := u.shaper.sections } } ∧
    (∀ k warn, (∀ ws, s.tables.rct.active = some ws → warn = fieldAt ws 4) → s.tables.rct.active ≠ none →
      SectionSteps (sectionAxis s.tables.fmt.active k) s.demand.crane s.limiter.state warn
        (s.demand.targets.get k) (s.shaper.sections.get k) (u.shaper.sections.get k)) ∧
    (s.tables.rct.active = none → ∃ warn, ∀ k,
      SectionSteps (sectionAxis s.tables.fmt.active k) s.demand.crane s.limiter.state warn
        (s.demand.targets.get k) (s.shaper.sections.get k) (u.shaper.sections.get k)) ∧
    ((∀ k, (u.shaper.sections.get k).output = (s.shaper.sections.get k).output) → t = u) ∧
    ((∃ k, (u.shaper.sections.get k).output ≠ (s.shaper.sections.get k).output) → t = valveRequested u)

/-- R100, R101, R102, R187: at a successful transmission end the valve frame leaves flight, the refresh timer restarts
for the refresh period of the active FMT, and a pending frame starts at once; an expiry of the refresh timer requests a
frame and leaves the timer stopped. A valve frame is sent on 0x2C4 (05, 5.7). -/
def Obligations.ValveEndsAndRefreshes : Prop :=
  (∀ (s : State) (frame : ValveFrame), s.power = .running → s.crane.port.mode = .active → s.crane.port.joined = true →
    s.crane.flight = some frame →
    ∃ u t, exec .valveTransmissionEnd s = .next t ∧
      u = { s with
        crane := { port := { s.crane.port with txErrors := s.crane.port.txErrors - 1 }, flight := none }
        valve :=
          { s.valve with
            refreshTimer :=
              some (match s.tables.fmt.active with
                | none => 100
                | some ws => 10 * fieldAt ws 0) } } ∧
      (s.valve.pending = false → t = u) ∧
      (s.valve.pending = true →
        t = { u with
          crane := { u.crane with flight := some { id := 0x2C4, content := valveContent u } }
          valve := { u.valve with pending := false } })) ∧
  (∀ (s : State) (d : Nat), s.power = .running → s.valve.refreshTimer = some d →
    exec .refreshTimerExpiry s = .next (valveRequested { s with valve := { s.valve with refreshTimer := none } }))

/-- R98, R179: the content of a valve command frame gives each output within −1000..+1000 divided by 8, truncated toward
zero, as a signed byte (beyond it the byte may be free, log entry 33, and is left out), and the crane state and the Limiter's state in byte 6; the content of a notice frame gives the twelve flags, the
crane state, the Limiter's state and its U. -/
def Obligations.FrameContents : Prop :=
  (∀ s : State, (valveContent s).length = 7 ∧
    (∀ k : Fin 6, -1000 ≤ (s.shaper.sections.get k).output → (s.shaper.sections.get k).output ≤ 1000 →
      (byteAt (valveContent s) k.val).toInt = Int.tdiv (s.shaper.sections.get k).output 8) ∧
    (byteAt (valveContent s) 6).toNat = s.demand.crane.code + 4 * s.limiter.state.code) ∧
  (∀ s : State, (noticeContent s).length = 6 ∧
    (byteAt (noticeContent s) 0).toNat + 256 * (byteAt (noticeContent s) 1).toNat = s.mgmt.flags.toNat ∧
    (byteAt (noticeContent s) 2).toNat = s.demand.crane.code ∧
    (byteAt (noticeContent s) 3).toNat = s.limiter.state.code ∧
    (s.limiter.u < 65536 →
      (byteAt (noticeContent s) 4).toNat + 256 * (byteAt (noticeContent s) 5).toNat = s.limiter.u))

/-! ## Weigh cycles -/

/-- R116, R117: at the expiry of the settle timer a cycle in SETTLING enters SAMPLING with a cleared attempt, the
window timer running, and skip scan set exactly when a scan is in progress. R121, R122, R123: at the expiry of the
window timer the attempt ends: with samples counted it becomes the kept attempt with its mean, with none it is void and
the kept attempt stays; a cycle with retries left goes to SETTLING in mode EACH with a settle delay, else to SAMPLING;
one without completes UNSTABLE with the kept attempt when its purpose is WEIGH, and fails otherwise. That the record of
a cycle keeps the ended attempt through the SETTLING of a retry (log entry 24), and that the one notice for OVERRUN and
RECORD raised in one step is formed at its end (log entry 10), are the model's choices. The record of an UNSTABLE
completion carries the kept attempt's fields, the mass and the flags of R122, R123 and R130 (`HandedOver`). -/
def Obligations.CycleTimers : Prop :=
  (∀ (s : State) (c : Cycle) (d : Nat), s.power = .running → s.weigh.phase = .settling c →
     s.weigh.settleTimer = some d →
     ∃ t skip, exec .settleTimerExpiry s = .next t ∧ (skip = true ↔ s.scan.inProgress ≠ none) ∧
       t = { s with
         weigh :=
           { s.weigh with
             phase := .sampling
               { c with
                 current :=
                   { sum := 0, n := 0, seen := none, uPeak := 0, staleSeen := false, skipScan := skip } }
             settleTimer := none
             windowTimer := some (10 * c.params.windowTimeout) } }) ∧
  (∀ (s : State) (c : Cycle) (d : Nat), s.power = .running → s.weigh.phase = .sampling c →
     s.weigh.windowTimer = some d →
     ∃ (kept : Option Kept) (u t : State), exec .windowTimerExpiry s = .next t ∧ CabStarts u t ∧
       (c.current.seen = none → kept = c.kept) ∧
       (∀ seen, c.current.seen = some seen → kept = some
         { mean := meanOf c.current.sum c.current.n, n := c.current.n, uPeak := c.current.uPeak,
           lastR := seen.lastR, lastSector := seen.lastSector, staleSeen := c.current.staleSeen }) ∧
       (c.attempt ≤ c.params.retries → c.params.settle = .each → 1 ≤ c.params.settleDelay →
         u = { s with
           weigh :=
             { s.weigh with
               phase := .settling { c with attempt := c.attempt + 1, kept := kept }
               settleTimer := some (10 * c.params.settleDelay)
               windowTimer := none } }) ∧
       (c.attempt ≤ c.params.retries → (c.params.settle = .first ∨ c.params.settleDelay = 0) →
         u = { s with
           weigh :=
             { s.weigh with
               phase := .sampling
                 { c with
                   attempt := c.attempt + 1, kept := kept
                   current :=
                     { sum := 0, n := 0, seen := none, uPeak := 0, staleSeen := false,
                       skipScan := s.scan.inProgress.isSome } }
               settleTimer := none
               windowTimer := some (10 * c.params.windowTimeout) } }) ∧
       (∀ k, c.params.retries < c.attempt → c.purpose = .weigh → kept = some k →
         ∃ m, HandedOver c k true s.weigh.tare m ∧ u = recordArrives m
           { s with
             weigh :=
               { s.weigh with phase := .idle, settleTimer := none, windowTimer := none, lastCause := .none } }) ∧
       (c.params.retries < c.attempt → kept = none → u = cycleAborted .noSample s) ∧
       (∀ k, c.params.retries < c.attempt → c.purpose = .tare → kept = some k → u = cycleAborted .unstable s))

/-- R107, R117, R119: a load result taken in SAMPLING. The result of the scan in progress at the entry is passed over
and skip scan becomes no; a result that is INVALID, reach short or outside the lift band is passed over; any other is
counted. A counted sample that does not complete the attempt changes the attempt alone. R120, R123, R124: the sample
that brings the attempt to N ends it: a spread within the stability band completes a WEIGH cycle with its record, and a
TARE cycle with the new tare offset where the mean lies in −500..+500, and fails it with TARE_RANGE otherwise. R120,
R122: a wider spread makes the attempt the kept one; the cycle retries through SETTLING or SAMPLING while its attempt
number is at or below the retries, completes UNSTABLE with that attempt when its purpose is WEIGH, and fails with
UNSTABLE when it is TARE. The attempt fields through the SETTLING of a retry are the model's reading (log entry 24),
and the statement leaves them out. The record of an UNSTABLE completion is spelled out in `HandedOver` (R122, R123,
R130). -/
def Obligations.SamplesAndStability : Prop :=
  (∀ (s : State) (c : Cycle) (r : LoadResult), s.weigh.phase = .sampling c →
     let lift := roleOutput s .lift
     let t := weighTakes r s
     let w := { s.weigh with prevGrapple := some (roleOutput s .grapple) }
     (c.current.skipScan = true →
       t = { s with weigh := { w with phase := .sampling { c with current := { c.current with skipScan := false } } } }) ∧
     (c.current.skipScan = false →
       ((∃ cause stale, r = .invalid cause stale) ∨ (∃ v, r = .valid v ∧ v.weight = none) ∨
           lift < c.params.bandLo ∨ c.params.bandHi < lift →
         t = { s with weigh := w }) ∧
       (∀ v x, r = .valid v → v.weight = some x → c.params.bandLo ≤ lift → lift ≤ c.params.bandHi →
         c.current.n + 1 ≠ c.params.nSamples →
         ∃ a seen, t = { s with weigh := { w with phase := .sampling { c with current := a } } } ∧
           a.sum = c.current.sum + x ∧ a.n = c.current.n + 1 ∧ a.seen = some seen ∧
           (c.current.seen = none → seen.min = x ∧ seen.max = x) ∧
           (∀ z, c.current.seen = some z → seen.min = min z.min x ∧ seen.max = max z.max x) ∧
           seen.lastR = v.reach ∧ (v.rating = none → seen.lastSector = 255 ∧ a.uPeak = c.current.uPeak) ∧
           (∀ q, v.rating = some q → seen.lastSector = q.sector ∧ a.uPeak = max c.current.uPeak q.utilisation) ∧
           (a.staleSeen = true ↔ c.current.staleSeen = true ∨ v.slewStale = true) ∧ a.skipScan = false))) ∧
  (∀ (s : State) (c : Cycle) (r : LoadResult) (v : ValidLoad) (x : Int),
     s.weigh.phase = .sampling c → c.current.skipScan = false → r = .valid v → v.weight = some x →
     (c.params.bandLo : Int) ≤ roleOutput s .lift → roleOutput s .lift ≤ c.params.bandHi →
     c.current.n + 1 = c.params.nSamples →
     let lo : Int := match c.current.seen with
       | some z => min z.min x
       | none => x
     let hi : Int := match c.current.seen with
       | some z => max z.max x
       | none => x
     let k : Kept :=
       { mean := meanOf (c.current.sum + x) c.params.nSamples
         n := c.params.nSamples
         uPeak := match v.rating with
           | some q => max c.current.uPeak q.utilisation
           | none => c.current.uPeak
         lastR := v.reach
         lastSector := match v.rating with
           | some q => q.sector
           | none => 255
         staleSeen := c.current.staleSeen || v.slewStale }
     let t := weighTakes r s
     let w := { s.weigh with prevGrapple := some (roleOutput s .grapple) }
     let ended := fun (cause : LastCause) =>
       { w with phase := .idle, settleTimer := none, windowTimer := none, lastCause := cause }
     (hi - lo ≤ c.params.stabilityBand →
       (c.purpose = .weigh → ∃ m, t = recordArrives m { s with weigh := ended .none } ∧
         m.assortment = c.assortment ∧ m.mass = massOf (k.mean - s.weigh.tare).toNat ∧ m.reach = v.reach ∧
         m.sector = k.lastSector ∧ m.uPeak = k.uPeak ∧
         m.samples = c.params.nSamples ∧ m.attempts = c.attempt ∧ m.unstable = false ∧
         (m.clamped = true ↔ k.mean < s.weigh.tare) ∧ (m.manual = true ↔ c.source = .request) ∧
         (m.staleSlew = true ↔ c.current.staleSeen = true ∨ v.slewStale = true)) ∧
       (c.purpose = .tare → -500 ≤ k.mean → k.mean ≤ 500 →
         t = { s with weigh := { ended .none with tare := k.mean } }) ∧
       (c.purpose = .tare → (k.mean < -500 ∨ 500 < k.mean) →
         t = raise .weighFailed { s with weigh := ended .tareRange })) ∧
     (c.params.stabilityBand < hi - lo →
       (c.attempt ≤ c.params.retries → c.params.settle = .each → 1 ≤ c.params.settleDelay →
         ∃ a, t = { s with
           weigh :=
             { w with
               phase := .settling { c with attempt := c.attempt + 1, kept := some k, current := a }
               settleTimer := some (10 * c.params.settleDelay), windowTimer := none } }) ∧
       (c.attempt ≤ c.params.retries → (c.params.settle = .first ∨ c.params.settleDelay = 0) →
         t = { s with
           weigh :=
             { w with
               phase := .sampling
                 { c with
                   attempt := c.attempt + 1, kept := some k
                   current :=
                     { sum := 0, n := 0, seen := none, uPeak := 0, staleSeen := false,
                       skipScan := s.scan.inProgress.isSome } }
               settleTimer := none, windowTimer := some (10 * c.params.windowTimeout) } }) ∧
       (c.params.retries < c.attempt → c.purpose = .weigh →
         ∃ m, HandedOver c k true s.weigh.tare m ∧ t = recordArrives m { s with weigh := ended .none }) ∧
       (c.params.retries < c.attempt → c.purpose = .tare →
         t = raise .weighFailed { s with weigh := ended .unstable })))

/-- R111, R112, R113: at a load result in IDLE the unit arms in AUTO mode at a crossing of the negative close
threshold; in ARMED it disarms at the close threshold in every mode, and otherwise fires in AUTO mode with the LIFT
output in the lift band and the crane ACTIVE. Each such result writes previous GRAPPLE. R107: the output of a role is
that of the section of the one axis that has the role, and 0 with the FMT EMPTY or no axis of the role; that of an axis
that has a role and no section is free (log entry 29), and the statement leaves it out. The attempt fields of the cycle
that starts are the model's reading (log entry 24). R107, R108: a load result in SETTLING, and one in IDLE with the WPT
EMPTY, writes previous GRAPPLE alone. -/
def Obligations.AutoArmsDisarmsAndFires : Prop :=
  (∀ (s : State) (r : LoadResult) (ws : Image), s.tables.wpt.active = some ws →
     let p := wptParams ws
     let lift := roleOutput s .lift
     let grapple := roleOutput s .grapple
     let w := { s.weigh with prevGrapple := some grapple }
     let t := weighTakes r s
     (s.weigh.phase = .idle →
       (∀ prev, s.weigh.prevGrapple = some prev → p.trigger = .auto → grapple ≤ -(p.closeThreshold : Int) →
         -(p.closeThreshold : Int) < prev → t = { s with weigh := { w with phase := .armed } }) ∧
       (s.weigh.prevGrapple = none ∨ p.trigger ≠ .auto ∨ -(p.closeThreshold : Int) < grapple ∨
           (∃ prev, s.weigh.prevGrapple = some prev ∧ prev ≤ -(p.closeThreshold : Int)) →
         t = { s with weigh := w })) ∧
     (s.weigh.phase = .armed →
       (p.closeThreshold ≤ grapple → t = { s with weigh := { w with phase := .idle } }) ∧
       (grapple < p.closeThreshold → p.trigger = .auto → p.bandLo ≤ lift → lift ≤ p.bandHi →
         s.demand.crane = .active →
         t = { s with
           weigh :=
             { startCycle .weigh .auto p s.records.assortment s.scan.inProgress.isSome s.weigh with
               prevGrapple := some grapple } }) ∧
       (grapple < p.closeThreshold →
         (p.trigger ≠ .auto ∨ lift < p.bandLo ∨ p.bandHi < lift ∨ s.demand.crane ≠ .active) →
         t = { s with weigh := w }))) ∧
  (∀ (s : State) (r : LoadResult),
     (s.weigh.phase = .idle ∧ s.tables.wpt.active = none) ∨ (∃ c, s.weigh.phase = .settling c) →
     weighTakes r s = { s with weigh := { s.weigh with prevGrapple := some (roleOutput s .grapple) } }) ∧
  (∀ (s : State) (role : Role),
     (s.tables.fmt.active = none → roleOutput s role = 0) ∧
     (∀ ws, s.tables.fmt.active = some ws →
       ((∀ i, (fmtAxis ws i).role ≠ role) → roleOutput s role = 0) ∧
       (∀ i k, (fmtAxis ws i).role = role → (∀ j, (fmtAxis ws j).role = role → j = i) →
         (fmtAxis ws i).drives = some k → roleOutput s role = (s.shaper.sections.get k).output)))

/-- R114, R115, R176: the cases of WEIGH_NOW and TARE in their order, and the cycle that an accepted one starts. R125,
R126: CANCEL_WEIGH is answered OK in every weigh state; it aborts a running cycle with CANCELLED, and disarms an ARMED
unit without a flag. The zero and absent attempt fields of a cycle that starts in SETTLING are the model's choice (log
entry 24); where a CANCEL_WEIGH brings both a response and a notice to a free port, either may start (log entry 11).
The ten parameters are the words of the active WPT by the layout of 8.2. -/
def Obligations.WeighRequests : Prop :=
  (∀ ws : Image, WptFields ws (wptParams ws)) ∧
  (∀ (s : State) (frame : List Byte) (rest : List (List Byte)) (req : Request) (cmd : Instr) (purpose : Purpose),
     (req = .weighNow ∧ cmd = .weighNow ∧ purpose = .weigh) ∨ (req = .tare ∧ cmd = .tare ∧ purpose = .tare) →
     Serving (some req) s frame rest →
     ∃ t, exec cmd s = .next t ∧
       (s.tables.wpt.active = none → CabStarts (answered frame rest 4 [] s) t) ∧
       (s.tables.wpt.active ≠ none → ((∃ c, s.weigh.phase = .settling c) ∨ ∃ c, s.weigh.phase = .sampling c) →
         CabStarts (answered frame rest 1 [] s) t) ∧
       (s.tables.wpt.active ≠ none → (s.weigh.phase = .idle ∨ s.weigh.phase = .armed) → s.demand.crane ≠ .active →
         CabStarts (answered frame rest 3 [] s) t) ∧
       (∀ ws, s.tables.wpt.active = some ws → (s.weigh.phase = .idle ∨ s.weigh.phase = .armed) →
         s.demand.crane = .active →
         let p := wptParams ws
         let c : Cycle :=
           { purpose := purpose, source := .request, params := p, assortment := s.records.assortment, attempt := 1,
             kept := none
             current :=
               { sum := 0, n := 0, seen := none, uPeak := 0, staleSeen := false,
                 skipScan := p.settleDelay = 0 && s.scan.inProgress.isSome } }
         (1 ≤ p.settleDelay →
           CabStarts (answered frame rest 0 [2]
             { s with
               weigh :=
                 { s.weigh with
                   phase := .settling c, settleTimer := some (10 * p.settleDelay), windowTimer := none } }) t) ∧
         (p.settleDelay = 0 →
           CabStarts (answered frame rest 0 [3]
             { s with
               weigh :=
                 { s.weigh with
                   phase := .sampling c, settleTimer := none, windowTimer := some (10 * p.windowTimeout) } }) t))) ∧
  (∀ (s : State) (frame : List Byte) (rest : List (List Byte)), Serving (some .cancelWeigh) s frame rest →
     ∃ t, exec .cancelWeigh s = .next t ∧
       (((∃ c, s.weigh.phase = .settling c) ∨ ∃ c, s.weigh.phase = .sampling c) →
         CabAnswers s (answered frame rest 0 [0] (cycleAborted .cancelled s)) t) ∧
       (s.weigh.phase = .armed →
         CabStarts (answered frame rest 0 [0] { s with weigh := { s.weigh with phase := .idle } }) t) ∧
       (s.weigh.phase = .idle → CabStarts (answered frame rest 0 [0] s) t))

/-- R120, R123: the mean is the nearest whole number with halves away from zero, and the mass is the net weight times
1.0197, rounded to the nearest kilogram, at most 33,922 for the largest net weight. -/
def Obligations.MeanAndMassAreRounded : Prop :=
  (∀ (sum : Int) (n : Nat), 1 ≤ n →
    2 * (sum.natAbs : Int) - n < 2 * n * ((meanOf sum n).natAbs : Int) ∧
    2 * n * ((meanOf sum n).natAbs : Int) ≤ 2 * (sum.natAbs : Int) + n ∧
    (0 ≤ sum → 0 ≤ meanOf sum n) ∧ (sum ≤ 0 → meanOf sum n ≤ 0)) ∧
  (∀ net : Nat, 10000 * massOf net ≤ 10197 * net + 5000 ∧ 10197 * net < 10000 * massOf net + 5000 ∧
    (net ≤ 33267 → massOf net ≤ 33922))

/-! ## Records and the tally -/

/-- R130, R131, R132, R133: an arriving record takes the next number, displaces the oldest of 48, is credited to its
own sort by the tally state, carries the flags of that state, is appended as the newest, and raises RECORD, and OVERRUN
at a displacement. -/
def Obligations.RecordArrival : Prop :=
  ∀ (s : State) (w : Weighed),
    ∃ (u : RecordUnit) (r : LiftRecord) (t : State),
      recordArrives w s = t ∧
      r.number = s.records.nextNumber ∧ r.weighed = { w with reach := min w.reach 65535 } ∧
      (r.outside = true ↔ s.records.tallyState = .closed) ∧ (r.unload = true ↔ s.records.tallyState = .unloading) ∧
      (s.records.tally.length = 16 →
        (r.underrun = true ↔ s.records.tallyState = .unloading ∧
          ∃ x, s.records.tally[w.assortment.val]? = some x ∧ x.mass < w.mass)) ∧
      u.tallyState = s.records.tallyState ∧ u.assortment = s.records.assortment ∧
      (s.records.nextNumber = 65535 → u.nextNumber = 1) ∧
      (s.records.nextNumber ≠ 65535 → u.nextNumber = s.records.nextNumber + 1) ∧
      (∀ k, k ≠ w.assortment.val → u.tally[k]? = s.records.tally[k]?) ∧
      (∀ x, s.records.tally[w.assortment.val]? = some x →
        ∃ y, u.tally[w.assortment.val]? = some y ∧
          (s.records.tallyState = .closed → y = x) ∧
          (s.records.tallyState ≠ .closed → y.lifts = min (x.lifts + 1) 65535) ∧
          (s.records.tallyState = .loading → y.mass = min (x.mass + w.mass) 4294967295) ∧
          (s.records.tallyState = .unloading → y.mass = x.mass - w.mass)) ∧
      (s.records.queue.length < 48 →
        u.queue = s.records.queue ++ [r] ∧ u.displaced = s.records.displaced ∧
        t = raise .record { s with records := u }) ∧
      (48 ≤ s.records.queue.length →
        u.queue = s.records.queue.tail ++ [r] ∧ u.displaced = min (s.records.displaced + 1) 255 ∧
        t = raise .record (raise .overrun { s with records := u }))

/-- R134, R141: READ_RECORD and READ_TALLY answer from the queue and the tally as they stand and change neither. R136:
ACK_RECORDS removes every record up to and including the named one, counts the removed ones and the depth left, and is
refused NOT_FOUND when no queued record has the number. That a value wider than its field gives its low bits, as
attempts above 7 in their three bits and samples above 255, is the model's choice (log entry 22). -/
def Obligations.RecordReadsAndAcknowledgement : Prop :=
  (∀ (s : State) (frame : List Byte) (rest : List (List Byte)),
     (Serving (some .readRecord) s frame rest → ∃ t, exec .readRecord s = .next t ∧
       let index := (byteAt frame 1).toNat
       let part := (byteAt frame 2).toNat
       (1 < part → CabStarts (answered frame rest 2 [] s) t) ∧
       (part ≤ 1 → s.records.queue.length ≤ index → CabStarts (answered frame rest 8 [] s) t) ∧
       (∀ r, part ≤ 1 → s.records.queue[index]? = some r →
         let n := fun x : Nat => BitVec.ofNat 8 x
         let f := fun (b : Bool) (x : Nat) => if b then x else 0
         (part = 0 → CabStarts (answered frame rest 0
           [n r.number, n (r.number / 256), n r.weighed.mass, n (r.weighed.mass / 256),
            n (r.weighed.assortment.val + 16 * (r.weighed.attempts % 8)),
            n (f r.weighed.unstable 1 + f r.weighed.clamped 2 + f r.weighed.staleSlew 4 + f r.weighed.manual 8 +
              f r.outside 16 + f r.unload 32 + f r.underrun 64)] s) t) ∧
         (part = 1 → CabStarts (answered frame rest 0
           [n r.weighed.reach, n (r.weighed.reach / 256), n r.weighed.uPeak, n (r.weighed.uPeak / 256),
            n r.weighed.sector, n r.weighed.samples] s) t))) ∧
     (Serving (some .readTally) s frame rest → ∃ t, exec .readTally s = .next t ∧
       let sort := (byteAt frame 1).toNat
       let answer := fun (lifts mass : Nat) =>
         [BitVec.ofNat 8 lifts, BitVec.ofNat 8 (lifts / 256), BitVec.ofNat 8 mass, BitVec.ofNat 8 (mass / 256),
          BitVec.ofNat 8 (mass / 65536), BitVec.ofNat 8 (mass / 16777216)]
       (∀ x, sort < 16 → s.records.tally[sort]? = some x →
         CabStarts (answered frame rest 0 (answer x.lifts x.mass) s) t) ∧
       (sort = 16 → CabStarts (answered frame rest 0
         (answer (min (s.records.tally.map SortTally.lifts).sum 65535)
           (min (s.records.tally.map SortTally.mass).sum 4294967295)) s) t) ∧
       (17 ≤ sort → CabStarts (answered frame rest 2 [] s) t))) ∧
  (∀ (s : State) (frame : List Byte) (rest : List (List Byte)), Serving (some .ackRecords) s frame rest →
     ∃ t, exec .ackRecords s = .next t ∧
       let number := (byteAt frame 1).toNat + 256 * (byteAt frame 2).toNat
       ((∀ r ∈ s.records.queue, r.number ≠ number) → CabStarts (answered frame rest 8 [] s) t) ∧
       (∀ older named newer, s.records.queue = older ++ named :: newer → named.number = number →
         (∀ r ∈ older, r.number ≠ number) →
         CabStarts (answered frame rest 0
           [BitVec.ofNat 8 (older.length + 1), BitVec.ofNat 8 newer.length]
           { s with records := { s.records with queue := newer } }) t))

/-- R138, R139, R140: SELECT_ASSORTMENT, OPEN_LOAD and CLOSE_LOAD. -/
def Obligations.AssortmentAndLoadRequests : Prop :=
  ∀ (s : State) (frame : List Byte) (rest : List (List Byte)),
    (Serving (some .selectAssortment) s frame rest → ∃ t, exec .selectAssortment s = .next t ∧
      (∀ k : Fin 16, (byteAt frame 1).toNat = k.val →
        CabStarts (answered frame rest 0 [byteAt frame 1]
          { s with records := { s.records with assortment := k } }) t) ∧
      (16 ≤ (byteAt frame 1).toNat → CabStarts (answered frame rest 2 [] s) t)) ∧
    (Serving (some .openLoad) s frame rest → ∃ t, exec .openLoad s = .next t ∧
      (∀ state, ((byteAt frame 1).toNat = 1 ∧ state = .loading) ∨ ((byteAt frame 1).toNat = 2 ∧ state = .unloading) →
        CabStarts (answered frame rest 0 []
          { s with
            records :=
              { s.records with
                tally := List.replicate 16 { lifts := 0, mass := 0 }, displaced := 0, tallyState := state } }) t) ∧
      ((byteAt frame 1).toNat ≠ 1 → (byteAt frame 1).toNat ≠ 2 → CabStarts (answered frame rest 2 [] s) t)) ∧
    (Serving (some .closeLoad) s frame rest → ∃ t, exec .closeLoad s = .next t ∧
      CabStarts (answered frame rest 0 [] { s with records := { s.records with tallyState := .closed } }) t)

/-! ## Tables -/

/-- R153 to R158: field validation of a shadow names word `j` exactly when `j` is the first word, in ascending index,
outside its range of 8.2 or against a condition of 8.6, and names none exactly when every word of the kind passes
(`WordPasses` spells the ranges and the conditions out for each kind). A clean shadow of an EMPTY kind fails (R151).
That a window low above 255 in a CAL fails at its own word, by its range of 8.2, and not at the window high's, where R155
puts the check of both, is the model's choice (log entry 34). -/
def Obligations.FirstFailingWordIsNamed : Prop :=
  (∀ (k : Kind) (ws : Image),
    (∀ j, firstBadWord k ws = some j ↔ j < k.words ∧ ¬ WordPasses k ws j ∧ ∀ i < j, WordPasses k ws i) ∧
    (firstBadWord k ws = none ↔ ∀ j < k.words, WordPasses k ws j)) ∧
  (∀ k, firstBadWord k (List.replicate k.words 0) ≠ none)

/-- R145, R147, R150: OPEN_TABLE sets the cursor and refreshes a CLEAN shadow from the active image; DISCARD makes the
shadow CLEAN; both refuse a kind that is not 1..5 with RANGE, and OPEN_TABLE a start beyond the image. -/
def Obligations.OpenTableAndDiscard : Prop :=
  ∀ (s : State) (frame : List Byte) (rest : List (List Byte)),
    let code := (byteAt frame 1).toNat
    let flag := fun b : Bool => if b then (1 : Byte) else 0
    (Serving (some .openTable) s frame rest → ∃ t, exec .openTable s = .next t ∧
      let start := (byteAt frame 2).toNat + 256 * (byteAt frame 3).toNat
      (code = 0 ∨ 5 < code → CabStarts (answered frame rest 2 [] s) t) ∧
      (∀ k : Kind, k.code = code → k.words ≤ start → CabStarts (answered frame rest 2 [] s) t) ∧
      (∀ k : Kind, k.code = code → start < k.words →
        let x := s.tables.kind k
        CabStarts (answered frame rest 0
          [byteAt frame 1, byteAt frame 2, byteAt frame 3, flag x.active.isSome, flag x.dirty]
          { s with
            tables :=
              { s.tables.setKind k
                  (if x.dirty then x else { x with shadow := cleanWords k x.active }) with
                cursorKind := k, cursorIndex := start } }) t)) ∧
    (Serving (some .discard) s frame rest → ∃ t, exec .discard s = .next t ∧
      (code = 0 ∨ 5 < code → CabStarts (answered frame rest 2 [] s) t) ∧
      (∀ k : Kind, k.code = code →
        let x := s.tables.kind k
        CabStarts (answered frame rest 0 [byteAt frame 1, flag x.active.isSome]
          { s with
            tables := s.tables.setKind k { x with shadow := cleanWords k x.active, dirty := false } }) t))

/-- R145, R146, R148: WRITE_WORDS writes the words that fit between the cursor and the end, in turn, into the shadow of
the cursor's kind, and no other word of any image changes; it moves the cursor past them, marks the shadow DIRTY when
it wrote one, and answers RANGE when a word was dropped. A count outside 1..3 writes nothing. That the data of that
refusal is all 0 is the model's choice (log entry 12). -/
def Obligations.WriteWordsFillsTheShadow : Prop :=
  ∀ (s : State) (frame : List Byte) (rest : List (List Byte)), Serving (some .writeWords) s frame rest →
    ∃ t, exec .writeWords s = .next t ∧
      let count := (byteAt frame 1).toNat
      let k := s.tables.cursorKind
      let x := s.tables.kind k
      let index := s.tables.cursorIndex
      let n := min count (k.words - index)
      (count = 0 ∨ 3 < count → CabStarts (answered frame rest 2 [] s) t) ∧
      (1 ≤ count → count ≤ 3 → x.shadow.length = k.words →
        ∃ shadow dirty, CabStarts
          (answered frame rest (if n = count then 0 else 2)
            [BitVec.ofNat 8 n, BitVec.ofNat 8 (index + n), BitVec.ofNat 8 ((index + n) / 256), if dirty then 1 else 0]
            { s with
              tables :=
                { s.tables.setKind k { x with shadow := shadow, dirty := dirty } with cursorIndex := index + n } }) t ∧
          (dirty = true ↔ x.dirty = true ∨ 1 ≤ n) ∧
          shadow.length = x.shadow.length ∧
          (∀ j, j < index ∨ index + n ≤ j → shadow[j]? = x.shadow[j]?) ∧
          (∀ i, i < n → shadow[index + i]? =
            some (BitVec.ofNat 16 ((byteAt frame (2 + 2 * i)).toNat + 256 * (byteAt frame (3 + 2 * i)).toNat))))

/-- R146, R149: the cases of READ_WORDS in their order; the words read stand in the response in order, and the cursor
moves past them. For bank 0 of an EMPTY kind with the cursor at its end R149's first case that holds says NO_TABLE and
R146 says RANGE; that R149 governs is the model's choice (log entry 30). -/
def Obligations.ReadWordsAtTheCursor : Prop :=
  ∀ (s : State) (frame : List Byte) (rest : List (List Byte)), Serving (some .readWords) s frame rest →
    ∃ t, exec .readWords s = .next t ∧
      let bank := (byteAt frame 1).toNat
      let count := (byteAt frame 2).toNat
      let k := s.tables.cursorKind
      let x := s.tables.kind k
      let index := s.tables.cursorIndex
      let n := min count (k.words - index)
      (1 < bank ∨ count = 0 ∨ 3 < count → CabStarts (answered frame rest 2 [] s) t) ∧
      (bank = 0 → 1 ≤ count → count ≤ 3 → x.active = none → CabStarts (answered frame rest 4 [] s) t) ∧
      (∀ ws, (bank = 0 ∧ x.active = some ws) ∨ (bank = 1 ∧ ws = x.shadow) → 1 ≤ count → count ≤ 3 →
        (k.words ≤ index → CabStarts (answered frame rest 2 [] s) t) ∧
        (index < k.words → ws.length = k.words → ∃ data,
          CabStarts (answered frame rest (if n = count then 0 else 2) data
            { s with tables := { s.tables with cursorIndex := index + n } }) t ∧
          data.length = 2 * n ∧
          (∀ i, i < n →
            byteAt data (2 * i) = BitVec.ofNat 8 (fieldAt ws (index + i)) ∧
            byteAt data (2 * i + 1) = BitVec.ofNat 8 (fieldAt ws (index + i) / 256))))

/-- R151, R152, R164: the checks of a COMMIT in their order, each refusal with its data and with every image as it was
(R161). -/
def Obligations.CommitRefusedByFirstCheck : Prop :=
  ∀ (s : State) (frame : List Byte) (rest : List (List Byte)), Serving (some .commit) s frame rest →
    ∃ t, exec .commit s = .next t ∧
      let code := (byteAt frame 1).toNat
      let given := (byteAt frame 2).toNat + 256 * (byteAt frame 3).toNat
      let locked := fun k : Kind => s.tables.protectSet.getLsbD (k.code - 1) = true ∧
        (s.tables.held = true ∨ s.tables.mode = .fixed ∨ (s.tables.mode = .keyed ∧ s.tables.keyLevel = .opened))
      (code = 0 ∨ 5 < code → CabStarts (answered frame rest 2 [] s) t) ∧
      (∀ k : Kind, k.code = code →
        let sum := wordSum (s.tables.kind k).shadow
        (s.tables.persist ≠ .idle → CabStarts (answered frame rest 1 [] s) t) ∧
        (s.tables.persist = .idle → locked k → CabStarts (answered frame rest 7 [] s) t) ∧
        (s.tables.persist = .idle → ¬ locked k → sum ≠ given →
          CabStarts (answered frame rest 5 [BitVec.ofNat 8 sum, BitVec.ofNat 8 (sum / 256)] s) t) ∧
        (∀ j, s.tables.persist = .idle → ¬ locked k → sum = given → firstBadWord k (s.tables.kind k).shadow = some j →
          CabStarts (answered frame rest 6 [BitVec.ofNat 8 j, BitVec.ofNat 8 (j / 256)] s) t))

/-- R159, R160 with R79, R103, R125, R126: an accepted COMMIT makes the shadow the active image and the shadow CLEAN,
and reaches the using blocks: an FMT zeroes the lever targets, sends an ACTIVE crane to READY, removes previous
GRAPPLE, restarts the refresh timer and requests a valve frame; a CAL or BMT aborts a running cycle with TABLE; a WPT
does the same and disarms; an RCT reaches no block at that moment. Where a commit brings both a response and a notice
to a free port, either may start: a free choice (log entry 11), formed at the end of the step (log entry 10). -/
def Obligations.CommitAcceptedReachesItsBlocks : Prop :=
  ∀ (s : State) (frame : List Byte) (rest : List (List Byte)) (k : Kind), Serving (some .commit) s frame rest →
    k.code = (byteAt frame 1).toNat → s.tables.persist = .idle →
    (s.tables.protectSet.getLsbD (k.code - 1) = false ∨
      (s.tables.held = false ∧ (s.tables.mode = .isOpen ∨ (s.tables.mode = .keyed ∧ s.tables.keyLevel = .closed)))) →
    wordSum (s.tables.kind k).shadow = (byteAt frame 2).toNat + 256 * (byteAt frame 3).toNat →
    firstBadWord k (s.tables.kind k).shadow = none →
    ∃ u v t, exec .commit s = .next t ∧
      (let ws := (s.tables.kind k).shadow
      u = { s with tables := s.tables.setKind k { active := some ws, shadow := ws, dirty := false } }) ∧
      (k = .fmt → v =
        (let w := activeSentToReady { u with demand := { u.demand with targets := ⟨0, 0, 0, 0, 0, 0⟩ } }
        valveRequested
          { w with
            weigh := { w.weigh with prevGrapple := none }
            valve := { w.valve with refreshTimer := some (10 * fieldAt (s.tables.kind k).shadow 0) } })) ∧
      (k = .cal ∨ k = .bmt → v = abortedIfRunning .table u) ∧
      (k = .rct → v = u) ∧
      (k = .wpt → v = if s.weigh.phase = .armed then { u with weigh := { u.weigh with phase := .idle } }
        else abortedIfRunning .table u) ∧
      CabAnswers s (answered frame rest 0 [byteAt frame 1, byteAt frame 2, byteAt frame 3] v) t

/-! ## Protection and the store -/

/-- R165: the cases of SET_PROTECTION in their order, and the setting as it stands after the request in the response.
-/
def Obligations.SetProtectionByFirstCase : Prop :=
  ∀ (s : State) (frame : List Byte) (rest : List (List Byte)), Serving (some .setProtection) s frame rest →
    ∃ t, exec .setProtection s = .next t ∧
      let mode := (byteAt frame 1).toNat
      let set := (byteAt frame 2).toNat
      let data := fun x : TableStore =>
        [BitVec.ofNat 8 x.mode.code, BitVec.ofNat 8 x.protectSet.toNat, if x.held then 1 else 0,
          if x.keyLevel = .closed then 1 else 0]
      let locked := s.tables.held = true ∨ s.tables.mode = .fixed ∨
        (s.tables.mode = .keyed ∧ s.tables.keyLevel = .opened) ∨ (mode = 2 ∧ s.tables.keyLevel = .opened)
      (3 < mode ∨ 32 ≤ set → CabStarts (answered frame rest 2 (data s.tables) s) t) ∧
      (mode ≤ 3 → set < 32 → locked → CabStarts (answered frame rest 7 (data s.tables) s) t) ∧
      (set < 32 → mode = 3 → ¬ locked →
        let x := { s.tables with held := true }
        CabStarts (answered frame rest 0 (data x) { s with tables := x }) t) ∧
      (∀ m : ProtectionMode, m.code = mode → set < 32 → ¬ locked →
        let x := { s.tables with mode := m, protectSet := BitVec.ofNat 5 set }
        CabStarts (answered frame rest 0 (data x) { s with tables := x }) t)

/-- R167, R168: PERSIST is refused BUSY while WRITING and otherwise starts with the WPT; the end of each item writes
it, adds it to the failed items when it reads back unequal, and starts the next one with its content taken at that
moment; the end of the settings record completes the PERSIST with its result and raises PERSIST. The content of an item
is the active words with their sum, the empty marker for an EMPTY kind, or the six words of the settings record with
their sum. That what the read-back finds is brought by the command is the model's choice (log entry 17). -/
def Obligations.PersistWritesItemByItem : Prop :=
  (∀ (s : State) (frame : List Byte) (rest : List (List Byte)), Serving (some .persist) s frame rest →
    ∃ t, exec .persist s = .next t ∧
      (s.tables.persist ≠ .idle → CabStarts (answered frame rest 1 [] s) t) ∧
      (s.tables.persist = .idle →
        CabStarts (answered frame rest 0 []
          { s with
            tables :=
              { s.tables with
                persist := .writing .wpt (itemContent s .wpt), persistResult := .none, failedItems := 0 } }) t)) ∧
  (∀ (s : State) (k : Kind),
    ((s.tables.kind k).active = none → itemContent s k.item = .emptyMarker) ∧
    (∀ ws, (s.tables.kind k).active = some ws →
      itemContent s k.item = .image ws (BitVec.ofNat 16 (ws.map BitVec.toNat).sum))) ∧
  (∀ s : State, ∃ ws sum, itemContent s .settings = .image ws sum ∧
    ws = [BitVec.ofNat 16 s.tables.mode.code, BitVec.ofNat 16 s.tables.protectSet.toNat, BitVec.ofInt 16 s.weigh.tare,
      BitVec.ofNat 16 s.mgmt.mask.toNat, 0, 0] ∧
    sum = BitVec.ofNat 16 (ws.map BitVec.toNat).sum) ∧
  (∀ (s : State) (item : PersistItem) (taken : Stored) (found : Option Stored), s.power = .running →
    s.tables.persist = .writing item taken →
    ∃ (u t : State), exec (.persistItemEnd found) s = .next t ∧
      u = { s with tables := { s.tables with stored := u.tables.stored, failedItems := u.tables.failedItems } } ∧
      (∀ j, j ≠ item → u.tables.stored.item j = s.tables.stored.item j) ∧
      u.tables.stored.item item = found.getD taken ∧
      (∀ b : Fin 6, u.tables.failedItems.getLsbD b.val = true ↔
        s.tables.failedItems.getLsbD b.val = true ∨ (b.val + 1 = item.number ∧ ∃ x, found = some x ∧ x ≠ taken)) ∧
      (∀ next : PersistItem, next.number = item.number + 1 →
        t = { u with tables := { u.tables with persist := .writing next (itemContent s next) } }) ∧
      (item = .settings → CabStarts
        (raise .persist
          { u with
            tables :=
              { u.tables with
                persist := .idle
                persistResult := if u.tables.failedItems = 0 then .ok else .failed } }) t))

/-! ## The management path -/

/-- R173: a request frame received by a Cab Port that is up is appended to the request FIFO when it has 8 bytes and the
FIFO holds fewer than 4, and discarded otherwise. R184: a data frame that the filter of a port does not accept, a
remote frame and a frame with an extended identifier have no effect beyond the count of a correct reception, and a
frame that the port itself sent has none. That a discarded or filtered frame lowers the receive error count as a
correct reception (R187) and an own frame does not is the model's choice (log entry 19). A port that is OFF or has not
joined receives nothing (R187, R188); that the command then changes nothing is the model's choice (log entry 1). -/
def Obligations.RequestAndFilteredFrames : Prop :=
  (∀ (s : State) (data : List Byte), s.cab.port.mode = .off ∨ s.cab.port.joined = false →
     exec (.requestFrameReceived data) s = .next s) ∧
  (∀ (s : State) (id : PortId) (frame : BusFrame), (portOf s id).mode = .off ∨ (portOf s id).joined = false →
     exec (.filteredFrame id frame) s = .next s) ∧
  (∀ (s : State) (data : List Byte), s.power = .running → s.cab.port.mode = .active → s.cab.port.joined = true →
     ∃ u t, exec (.requestFrameReceived data) s = .next t ∧
       u = { s with cab := { s.cab with port := { s.cab.port with rxErrors := s.cab.port.rxErrors - 1 } } } ∧
       (data.length = 8 → s.cab.requests.length < 4 →
         t = { u with cab := { u.cab with requests := s.cab.requests ++ [data] } }) ∧
       (data.length < 8 ∨ 4 ≤ s.cab.requests.length → t = u)) ∧
  (∀ (s : State) (id : PortId), s.power = .running → (portOf s id).mode = .active → (portOf s id).joined = true →
     let t := setPort s id { portOf s id with rxErrors := (portOf s id).rxErrors - 1 }
     (∀ n : Nat, (id = .cab → n ≠ 0x1A4 ∧ n ≠ 0x1A5 ∧ n ≠ 0x5C0 + s.cab.na.val) → (id = .crane → n ≠ 0x3C8) →
       exec (.filteredFrame id (.data n)) s = .next t) ∧
     exec (.filteredFrame id .remote) s = .next t ∧ exec (.filteredFrame id .extended) s = .next t ∧
     exec (.filteredFrame id .own) s = .next s)

/-- R177: READ_STATUS refuses a page above 3 and an entry above the last of its page; entry 0 takes the page's snapshot
from the state standing at its serving, any other entry takes one only when the page has none, and the answer is that
entry of the snapshot. No other snapshot and nothing else of the state changes. A reading holds what the table of R177
gives for each entry, in its bytes and codes; that the valid bit of a channel follows the fault fields as they stand is
the model's choice (log entry 16), and so is that a value wider than its field gives its low bits (log entry 22). -/
def Obligations.ReadStatusAnswersFromSnapshot : Prop :=
  (∀ (s : State) (frame : List Byte) (rest : List (List Byte)), Serving (some .readStatus) s frame rest →
     ∃ t, exec .readStatus s = .next t ∧
       let page := (byteAt frame 1).toNat
       let entry := (byteAt frame 2).toNat
       let last := fun p : Nat => if p = 0 then 2 else if p = 1 then 7 else if p = 2 then 12 else 8
       (3 < page ∨ (page ≤ 3 ∧ last page < entry) → CabStarts (answered frame rest 2 [] s) t) ∧
       (page ≤ 3 → entry ≤ last page → ∃ snapshots reading data,
         CabStarts (answered frame rest 0 data { s with mgmt := { s.mgmt with snapshots := snapshots } }) t ∧
         snapshots.get page = some reading ∧ data = reading.getD entry [] ∧
         (entry = 0 ∨ s.mgmt.snapshots.get page = none → reading = pageOf s page ∧ reading.length = last page + 1) ∧
         (entry ≠ 0 → ∀ r, s.mgmt.snapshots.get page = some r → reading = r) ∧
         (∀ p, p ≤ 3 → p ≠ page → snapshots.get p = s.mgmt.snapshots.get p))) ∧
  (∀ s : State, PageContents s) ∧ PageCodes

/-- R180: READ_NOTICES answers the twelve flags and clears them; SET_NOTICE_MASK sets the mask or refuses RANGE;
neither requests a notice frame. R178, R179: raising a flag sets it and no other, and requests a notice frame exactly
when it was clear and is unmasked. -/
def Obligations.NoticeFlagsAndMask : Prop :=
  (∀ (s : State) (frame : List Byte) (rest : List (List Byte)),
     (Serving (some .readNotices) s frame rest → ∃ t, exec .readNotices s = .next t ∧
       CabStarts (answered frame rest 0
         [BitVec.ofNat 8 s.mgmt.flags.toNat, BitVec.ofNat 8 (s.mgmt.flags.toNat / 256)]
         { s with mgmt := { s.mgmt with flags := 0 } }) t) ∧
     (Serving (some .setNoticeMask) s frame rest → ∃ t, exec .setNoticeMask s = .next t ∧
       let mask := (byteAt frame 1).toNat + 256 * (byteAt frame 2).toNat
       (mask < 4096 → CabStarts (answered frame rest 0 [byteAt frame 1, byteAt frame 2]
         { s with mgmt := { s.mgmt with mask := BitVec.ofNat 12 mask } }) t) ∧
       (4096 ≤ mask → CabStarts (answered frame rest 2 [] s) t))) ∧
  (∀ (s : State) (f : NoticeFlag),
     let t := raise f s
     t = { s with mgmt := { s.mgmt with flags := t.mgmt.flags, noticePending := t.mgmt.noticePending } } ∧
     (∀ g : NoticeFlag, flagSet t.mgmt.flags g = true ↔ flagSet s.mgmt.flags g = true ∨ g = f) ∧
     (t.mgmt.noticePending = true ↔
       s.mgmt.noticePending = true ∨ (flagSet s.mgmt.flags f = false ∧ flagSet s.mgmt.mask f = false)))

/-- R174, R181: RESET_PREPARE sets the prepare flag; RESET_EXECUTE makes a soft reset pending when the flag is set and
is refused SEQUENCE when it is clear; a code outside the table is answered UNKNOWN. The last two clear the flag. -/
def Obligations.ResetSequenceAndUnknownCodes : Prop :=
  ∀ (s : State) (frame : List Byte) (rest : List (List Byte)),
    (Serving (some .resetPrepare) s frame rest → ∃ t, exec .resetPrepare s = .next t ∧
      CabStarts (answeredWith true frame rest 0 [] s) t) ∧
    (Serving (some .resetExecute) s frame rest → ∃ t, exec .resetExecute s = .next t ∧
      (s.mgmt.prepare = true →
        CabStarts (answered frame rest 0 [] { s with mgmt := { s.mgmt with softResetPending := true } }) t) ∧
      (s.mgmt.prepare = false → CabStarts (answered frame rest 10 [] s) t)) ∧
    (Serving none s frame rest → ∃ t, exec .unknownRequest s = .next t ∧
      CabStarts (answered frame rest 9 [] s) t)

/-! ## The ports -/

/-- R175, R185, R187: at a successful transmission end a response leaves the FIFO, a notice leaves flight, the transmit
error count falls, and the next waiting frame starts, a response before a notice. The end of the response of an
accepted RESET_EXECUTE is `SoftResetTakesPlace`; that of a refused one is as any other, also while a soft reset is
pending (R181). Each frame that starts is sent on its identifier under the node address (`CabStarts`, R184). -/
def Obligations.CabTransmissionEnds : Prop :=
  ∀ s : State, s.power = .running → s.cab.port.mode = .active → s.cab.port.joined = true →
    (∀ r more sentOn, s.cab.flight = some (.response sentOn) → s.cab.responses = r :: more →
      (s.mgmt.softResetPending = false ∨ byteAt r 0 ≠ 0x61 ∨ byteAt r 1 ≠ 0) →
      ∃ t, exec .responseTransmissionEnd s = .next t ∧
        CabStarts
          { s with
            cab :=
              { s.cab with
                port := { s.cab.port with txErrors := s.cab.port.txErrors - 1 }, responses := more,
                flight := none } } t) ∧
    (∀ sentOn content, s.cab.flight = some (.notice sentOn content) →
      ∃ t, exec .noticeTransmissionEnd s = .next t ∧
        CabStarts
          { s with
            cab :=
              { s.cab with
                port := { s.cab.port with txErrors := s.cab.port.txErrors - 1 }, flight := none } } t)

/-- R187, R186, R78, R104, R179: an error while receiving raises the receive error count by 1 up to 255; one while
transmitting raises the transmit error count by 8 and leaves the frame in flight; past 255 the port goes OFF, abandons
a notice or valve frame with its pending flag set and keeps a response, an ACTIVE crane becomes READY when the port is
the Crane Port, and PORT is raised. That an error while transmitting needs a frame in flight and that the transmit
error count keeps its value beyond 255 while the port is OFF (log entry 20), and that the one notice for WEIGH_FAILED
and PORT raised in one step is formed at its end (log entry 10), are the model's choices. -/
def Obligations.PortErrorsAndBusOff : Prop :=
  ∀ (s : State) (id : PortId), s.power = .running → (portOf s id).mode = .active → (portOf s id).joined = true →
    let p := portOf s id
    (p.txErrors ≤ 255 → exec (.canError id .receiving) s =
      .next (setPort s id { p with rxErrors := min (p.rxErrors + 1) 255 })) ∧
    (portSends s id = true → p.txErrors + 8 ≤ 255 →
      exec (.canError id .transmitting) s = .next (setPort s id { p with txErrors := p.txErrors + 8 })) ∧
    (portSends s id = true → 255 < p.txErrors + 8 →
      let off : Port := { p with mode := .off, txErrors := p.txErrors + 8, recovery := 0 }
      ∃ t, exec (.canError id .transmitting) s = .next t ∧
        (∀ sentOn, id = .cab → s.cab.flight = some (.response sentOn) →
          t = raise .port { s with cab := { s.cab with port := off, flight := none } }) ∧
        (∀ sentOn content, id = .cab → s.cab.flight = some (.notice sentOn content) →
          t = raise .port
            { s with
              cab := { s.cab with port := off, flight := none }
              mgmt := { s.mgmt with noticePending := true } }) ∧
        (id = .crane → CabStarts
          (raise .port (activeSentToReady
            { s with
              crane := { port := off, flight := none }
              valve := { s.valve with pending := true } })) t))

/-- R187, R188, R100, R185: a run of recessive bits raises the recovery count of an OFF port, and the 128th makes it
ACTIVE with both error counts 0, raises PORT and starts what waits; that PORT_RECOVERY names that same moment is the
model's choice (log entry 4). The joining after a reset starts what waits and raises no flag. -/
def Obligations.PortsRecoverAndJoin : Prop :=
  ∀ (s : State) (id : PortId), s.power = .running →
    let p := portOf s id
    let starts := fun (u t : State) =>
      (id = .cab → CabStarts u t) ∧
      (id = .crane → s.valve.pending = true → s.crane.flight = none → CabStarts (valveRequested u) t) ∧
      (id = .crane → s.valve.pending = false → CabStarts u t)
    (p.mode = .off → p.recovery < 127 →
      exec (.recessiveRunWhileOff id) s = .next (setPort s id { p with recovery := p.recovery + 1 })) ∧
    (∀ c, c = .recessiveRunWhileOff id ∨ c = .portRecovery id → p.mode = .off → p.recovery = 127 → p.joined = true →
      ∃ t, exec c s = .next t ∧
        starts
          (raise .port (setPort s id { p with mode := .active, txErrors := 0, rxErrors := 0, recovery := 0 })) t) ∧
    (p.mode = .active → p.joined = false →
      ∃ t, exec (.portJoin id) s = .next t ∧ starts (setPort s id { p with joined := true }) t)

/-! ## What every step keeps -/

/-- Every step keeps the invariant of the crane and the weigh cycle, from every state that meets it. -/
def Obligations.EveryStepKeepsCraneInvariant : Prop :=
  ∀ s t : State, CraneInv s → step s = .next t → CraneInv t

/-- Every step keeps the agreement of the Limiter with the latest load result (R58), from every state that meets it. -/
def Obligations.EveryStepKeepsLimiterInvariant : Prop :=
  ∀ s t : State, LimiterInv s → step s = .next t → LimiterInv t

/-- Every step keeps the invariant of the record queue and the tally, from every state that meets it; and in a queue
that meets it no two records have the same number (R131). -/
def Obligations.EveryStepKeepsRecordInvariant : Prop :=
  (∀ s t : State, RecordInv s.records → step s = .next t → RecordInv t.records) ∧
  (∀ u : RecordUnit, RecordInv u → (u.queue.map LiftRecord.number).Nodup)

/-- Every step keeps the invariant of the table images and the cursor, from every state that meets it (R145, R146). -/
def Obligations.EveryStepKeepsTableInvariant : Prop :=
  ∀ s t : State, TableInv s.tables → step s = .next t → TableInv t.tables

/-- Every step keeps the invariant of the two transmitters, from every state that meets it (R100, R179, R185). Its
clause that a port is OFF exactly while its transmit error count is above 255 rests on the model's choice that the
count keeps its value while the port is OFF (log entry 20). A frame in flight is sent on 0x5D0 + NA, 0x5E0 + NA or
0x2C4 by its kind (R184). -/
def Obligations.EveryStepKeepsTransmitterInvariant : Prop :=
  ∀ s t : State, TransmitterInv s → step s = .next t → TransmitterInv t

/-- The state after reset meets the five invariants. Its lines, straps and store are the model's choice (log entries 7
and 8). -/
def Obligations.ResetMeetsTheInvariants : Prop :=
  CraneInv State.reset ∧ LimiterInv State.reset ∧ RecordInv State.reset.records ∧ TableInv State.reset.tables ∧
    TransmitterInv State.reset

/-- R87, R89: at every step, whatever the command, no section output grows in magnitude while the crane state is other
than ACTIVE; none grows in a direction whose effect in the active FMT is RAISES while the Limiter is in LIMIT or FAULT;
and none crosses zero. -/
def Obligations.OutputsGrowOnlyWhereAllowed : Prop :=
  ∀ (s t : State) (k : Fin 6), step s = .next t →
    let before := (s.shaper.sections.get k).output
    let after := (t.shaper.sections.get k).output
    (s.demand.crane ≠ .active → after.natAbs ≤ before.natAbs) ∧
    (∀ a, s.limiter.state.Cutting → sectionAxis s.tables.fmt.active k = some a → InRaises a after →
      after.natAbs ≤ before.natAbs) ∧
    (before ≠ 0 → after ≠ 0 → (0 < before ↔ 0 < after))

/-- R144, R164, R167: at every step, whatever the command, the active image of a kind changes only by a COMMIT or by
start-up loading at POWER_ON or SUPPLY_DIP; a COMMIT changes it only while no PERSIST is in progress, to the words of a
shadow that passes field validation and, for a kind in the protect set, only with the held flag clear and the mode
OPEN, or KEYED with the key level closed. -/
def Obligations.ActiveImagesChangeOnlyWhereAllowed : Prop :=
  ∀ (s t : State) (c : Instr) (k : Kind), exec c s = .next t → (t.tables.kind k).active ≠ (s.tables.kind k).active →
    (∃ a b, c = .powerOn a b ∨ c = .supplyDip a b) ∨
    (c = .commit ∧ s.tables.persist = .idle ∧ (t.tables.kind k).active = some (s.tables.kind k).shadow ∧
      firstBadWord k (s.tables.kind k).shadow = none ∧
      (s.tables.protectSet.getLsbD (k.code - 1) = true →
        s.tables.held = false ∧
          (s.tables.mode = .isOpen ∨ (s.tables.mode = .keyed ∧ s.tables.keyLevel = .closed))))

/-- R65, R68, R75: at every step, whatever the command, the crane becomes ACTIVE only at a neutral frame of the owner,
in READY, with the presence level closed, the FMT VALID and the Crane Port up; and an owner that holds a lever out of
centre is never followed by another source but through an end of its ownership. -/
def Obligations.CraneActivatesOnlyAtNeutralOwnerFrame : Prop :=
  ∀ (s t : State) (c : Instr), exec c s = .next t →
    (s.demand.crane ≠ .active → t.demand.crane = .active →
      ∃ src data o, c = .demandFrame src data ∧ s.demand.owner = some o ∧ o.source = src ∧
        isNeutral s.tables.fmt.active (axisValues data) = true ∧ s.demand.crane = .ready ∧
        s.demand.presence = .closed ∧ s.tables.fmt.active ≠ none ∧ s.crane.port.up = true) ∧
    (∀ o p, s.demand.owner = some o → o.neutral = false → t.demand.owner = some p → p.source = o.source)
end

