-- ==== Sys2Proof/Laws/State.lean ====
section
/-! SUPPORT. One lemma for each field under each update of the state, true by unfolding, so that no later proof unfolds
an update. -/

namespace Sys2Proof.Machine

/-! ### Raising a flag -/
@[simp] theorem raise_power (f : NoticeFlag) (s : State) : (raise f s).power = s.power := rfl
@[simp] theorem raise_pins (f : NoticeFlag) (s : State) : (raise f s).pins = s.pins := rfl
@[simp] theorem raise_cab (f : NoticeFlag) (s : State) : (raise f s).cab = s.cab := rfl
@[simp] theorem raise_crane (f : NoticeFlag) (s : State) : (raise f s).crane = s.crane := rfl
@[simp] theorem raise_scan (f : NoticeFlag) (s : State) : (raise f s).scan = s.scan := rfl
@[simp] theorem raise_lau (f : NoticeFlag) (s : State) : (raise f s).lau = s.lau := rfl
@[simp] theorem raise_limiter (f : NoticeFlag) (s : State) : (raise f s).limiter = s.limiter := rfl
@[simp] theorem raise_demand (f : NoticeFlag) (s : State) : (raise f s).demand = s.demand := rfl
@[simp] theorem raise_shaper (f : NoticeFlag) (s : State) : (raise f s).shaper = s.shaper := rfl
@[simp] theorem raise_valve (f : NoticeFlag) (s : State) : (raise f s).valve = s.valve := rfl
@[simp] theorem raise_weigh (f : NoticeFlag) (s : State) : (raise f s).weigh = s.weigh := rfl
@[simp] theorem raise_records (f : NoticeFlag) (s : State) : (raise f s).records = s.records := rfl
@[simp] theorem raise_tables (f : NoticeFlag) (s : State) : (raise f s).tables = s.tables := rfl
@[simp] theorem raise_pending (f : NoticeFlag) (s : State) : (raise f s).pending = s.pending := rfl
@[simp] theorem raise_freeCount (f : NoticeFlag) (s : State) : (raise f s).freeCount = s.freeCount := rfl
@[simp] theorem raise_mgmt (f : NoticeFlag) (s : State) : (raise f s).mgmt = s.mgmt.raise f := rfl
@[simp] theorem Management.raise_prepare (m : Management) (f : NoticeFlag) : (m.raise f).prepare = m.prepare := rfl
@[simp] theorem Management.raise_mask (m : Management) (f : NoticeFlag) : (m.raise f).mask = m.mask := rfl
@[simp] theorem Management.raise_resetCause (m : Management) (f : NoticeFlag) : (m.raise f).resetCause = m.resetCause := rfl
@[simp] theorem Management.raise_softResetPending (m : Management) (f : NoticeFlag) : (m.raise f).softResetPending = m.softResetPending := rfl
@[simp] theorem Management.raise_snapshots (m : Management) (f : NoticeFlag) : (m.raise f).snapshots = m.snapshots := rfl

/-! ### The oldest response starts -/
@[simp] theorem startResponse_power (s : State) : (startResponse s).power = s.power := rfl
@[simp] theorem startResponse_pins (s : State) : (startResponse s).pins = s.pins := rfl
@[simp] theorem startResponse_crane (s : State) : (startResponse s).crane = s.crane := rfl
@[simp] theorem startResponse_scan (s : State) : (startResponse s).scan = s.scan := rfl
@[simp] theorem startResponse_lau (s : State) : (startResponse s).lau = s.lau := rfl
@[simp] theorem startResponse_limiter (s : State) : (startResponse s).limiter = s.limiter := rfl
@[simp] theorem startResponse_demand (s : State) : (startResponse s).demand = s.demand := rfl
@[simp] theorem startResponse_shaper (s : State) : (startResponse s).shaper = s.shaper := rfl
@[simp] theorem startResponse_valve (s : State) : (startResponse s).valve = s.valve := rfl
@[simp] theorem startResponse_weigh (s : State) : (startResponse s).weigh = s.weigh := rfl
@[simp] theorem startResponse_records (s : State) : (startResponse s).records = s.records := rfl
@[simp] theorem startResponse_tables (s : State) : (startResponse s).tables = s.tables := rfl
@[simp] theorem startResponse_mgmt (s : State) : (startResponse s).mgmt = s.mgmt := rfl
@[simp] theorem startResponse_pending (s : State) : (startResponse s).pending = s.pending := rfl
@[simp] theorem startResponse_freeCount (s : State) : (startResponse s).freeCount = s.freeCount := rfl
@[simp] theorem startResponse_cab_port (s : State) : (startResponse s).cab.port = s.cab.port := rfl
@[simp] theorem startResponse_cab_na (s : State) : (startResponse s).cab.na = s.cab.na := rfl
@[simp] theorem startResponse_cab_requests (s : State) : (startResponse s).cab.requests = s.cab.requests := rfl
@[simp] theorem startResponse_cab_responses (s : State) : (startResponse s).cab.responses = s.cab.responses := rfl
@[simp] theorem startResponse_cab_flight (s : State) :
    (startResponse s).cab.flight = some (.response (responseId s.cab.na)) := rfl

/-! ### The pending notice starts -/
@[simp] theorem startNotice_power (s : State) : (startNotice s).power = s.power := rfl
@[simp] theorem startNotice_pins (s : State) : (startNotice s).pins = s.pins := rfl
@[simp] theorem startNotice_crane (s : State) : (startNotice s).crane = s.crane := rfl
@[simp] theorem startNotice_scan (s : State) : (startNotice s).scan = s.scan := rfl
@[simp] theorem startNotice_lau (s : State) : (startNotice s).lau = s.lau := rfl
@[simp] theorem startNotice_limiter (s : State) : (startNotice s).limiter = s.limiter := rfl
@[simp] theorem startNotice_demand (s : State) : (startNotice s).demand = s.demand := rfl
@[simp] theorem startNotice_shaper (s : State) : (startNotice s).shaper = s.shaper := rfl
@[simp] theorem startNotice_valve (s : State) : (startNotice s).valve = s.valve := rfl
@[simp] theorem startNotice_weigh (s : State) : (startNotice s).weigh = s.weigh := rfl
@[simp] theorem startNotice_records (s : State) : (startNotice s).records = s.records := rfl
@[simp] theorem startNotice_tables (s : State) : (startNotice s).tables = s.tables := rfl
@[simp] theorem startNotice_pending (s : State) : (startNotice s).pending = s.pending := rfl
@[simp] theorem startNotice_freeCount (s : State) : (startNotice s).freeCount = s.freeCount := rfl
@[simp] theorem startNotice_cab_port (s : State) : (startNotice s).cab.port = s.cab.port := rfl
@[simp] theorem startNotice_cab_na (s : State) : (startNotice s).cab.na = s.cab.na := rfl
@[simp] theorem startNotice_cab_requests (s : State) : (startNotice s).cab.requests = s.cab.requests := rfl
@[simp] theorem startNotice_cab_responses (s : State) : (startNotice s).cab.responses = s.cab.responses := rfl
@[simp] theorem startNotice_cab_flight (s : State) :
    (startNotice s).cab.flight = some (.notice (noticeId s.cab.na) (noticeContent s)) := rfl
@[simp] theorem startNotice_mgmt_prepare (s : State) : (startNotice s).mgmt.prepare = s.mgmt.prepare := rfl
@[simp] theorem startNotice_mgmt_flags (s : State) : (startNotice s).mgmt.flags = s.mgmt.flags := rfl
@[simp] theorem startNotice_mgmt_mask (s : State) : (startNotice s).mgmt.mask = s.mgmt.mask := rfl
@[simp] theorem startNotice_mgmt_resetCause (s : State) : (startNotice s).mgmt.resetCause = s.mgmt.resetCause := rfl
@[simp] theorem startNotice_mgmt_softResetPending (s : State) : (startNotice s).mgmt.softResetPending = s.mgmt.softResetPending := rfl
@[simp] theorem startNotice_mgmt_snapshots (s : State) : (startNotice s).mgmt.snapshots = s.mgmt.snapshots := rfl
@[simp] theorem startNotice_mgmt_noticePending (s : State) : (startNotice s).mgmt.noticePending = false := rfl

/-! ### The refresh timer restarts -/
@[simp] theorem restartRefresh_power (s : State) : (restartRefresh s).power = s.power := rfl
@[simp] theorem restartRefresh_pins (s : State) : (restartRefresh s).pins = s.pins := rfl
@[simp] theorem restartRefresh_cab (s : State) : (restartRefresh s).cab = s.cab := rfl
@[simp] theorem restartRefresh_crane (s : State) : (restartRefresh s).crane = s.crane := rfl
@[simp] theorem restartRefresh_scan (s : State) : (restartRefresh s).scan = s.scan := rfl
@[simp] theorem restartRefresh_lau (s : State) : (restartRefresh s).lau = s.lau := rfl
@[simp] theorem restartRefresh_limiter (s : State) : (restartRefresh s).limiter = s.limiter := rfl
@[simp] theorem restartRefresh_demand (s : State) : (restartRefresh s).demand = s.demand := rfl
@[simp] theorem restartRefresh_shaper (s : State) : (restartRefresh s).shaper = s.shaper := rfl
@[simp] theorem restartRefresh_weigh (s : State) : (restartRefresh s).weigh = s.weigh := rfl
@[simp] theorem restartRefresh_records (s : State) : (restartRefresh s).records = s.records := rfl
@[simp] theorem restartRefresh_tables (s : State) : (restartRefresh s).tables = s.tables := rfl
@[simp] theorem restartRefresh_mgmt (s : State) : (restartRefresh s).mgmt = s.mgmt := rfl
@[simp] theorem restartRefresh_pending (s : State) : (restartRefresh s).pending = s.pending := rfl
@[simp] theorem restartRefresh_freeCount (s : State) : (restartRefresh s).freeCount = s.freeCount := rfl
@[simp] theorem restartRefresh_valve_pending (s : State) :
    (restartRefresh s).valve.pending = s.valve.pending := rfl

/-! ### The Cab Port receives -/
@[simp] theorem cabReceives_power (s : State) : (cabReceives s).power = s.power := rfl
@[simp] theorem cabReceives_pins (s : State) : (cabReceives s).pins = s.pins := rfl
@[simp] theorem cabReceives_crane (s : State) : (cabReceives s).crane = s.crane := rfl
@[simp] theorem cabReceives_scan (s : State) : (cabReceives s).scan = s.scan := rfl
@[simp] theorem cabReceives_lau (s : State) : (cabReceives s).lau = s.lau := rfl
@[simp] theorem cabReceives_limiter (s : State) : (cabReceives s).limiter = s.limiter := rfl
@[simp] theorem cabReceives_demand (s : State) : (cabReceives s).demand = s.demand := rfl
@[simp] theorem cabReceives_shaper (s : State) : (cabReceives s).shaper = s.shaper := rfl
@[simp] theorem cabReceives_valve (s : State) : (cabReceives s).valve = s.valve := rfl
@[simp] theorem cabReceives_weigh (s : State) : (cabReceives s).weigh = s.weigh := rfl
@[simp] theorem cabReceives_records (s : State) : (cabReceives s).records = s.records := rfl
@[simp] theorem cabReceives_tables (s : State) : (cabReceives s).tables = s.tables := rfl
@[simp] theorem cabReceives_mgmt (s : State) : (cabReceives s).mgmt = s.mgmt := rfl
@[simp] theorem cabReceives_pending (s : State) : (cabReceives s).pending = s.pending := rfl
@[simp] theorem cabReceives_freeCount (s : State) : (cabReceives s).freeCount = s.freeCount := rfl
@[simp] theorem cabReceives_cab_na (s : State) : (cabReceives s).cab.na = s.cab.na := rfl
@[simp] theorem cabReceives_cab_requests (s : State) : (cabReceives s).cab.requests = s.cab.requests := rfl
@[simp] theorem cabReceives_cab_responses (s : State) : (cabReceives s).cab.responses = s.cab.responses := rfl
@[simp] theorem cabReceives_cab_flight (s : State) : (cabReceives s).cab.flight = s.cab.flight := rfl
@[simp] theorem cabReceives_cab_port (s : State) : (cabReceives s).cab.port = s.cab.port.received := rfl

/-! ### The Crane Port receives -/
@[simp] theorem craneReceives_power (s : State) : (craneReceives s).power = s.power := rfl
@[simp] theorem craneReceives_pins (s : State) : (craneReceives s).pins = s.pins := rfl
@[simp] theorem craneReceives_cab (s : State) : (craneReceives s).cab = s.cab := rfl
@[simp] theorem craneReceives_scan (s : State) : (craneReceives s).scan = s.scan := rfl
@[simp] theorem craneReceives_lau (s : State) : (craneReceives s).lau = s.lau := rfl
@[simp] theorem craneReceives_limiter (s : State) : (craneReceives s).limiter = s.limiter := rfl
@[simp] theorem craneReceives_demand (s : State) : (craneReceives s).demand = s.demand := rfl
@[simp] theorem craneReceives_shaper (s : State) : (craneReceives s).shaper = s.shaper := rfl
@[simp] theorem craneReceives_valve (s : State) : (craneReceives s).valve = s.valve := rfl
@[simp] theorem craneReceives_weigh (s : State) : (craneReceives s).weigh = s.weigh := rfl
@[simp] theorem craneReceives_records (s : State) : (craneReceives s).records = s.records := rfl
@[simp] theorem craneReceives_tables (s : State) : (craneReceives s).tables = s.tables := rfl
@[simp] theorem craneReceives_mgmt (s : State) : (craneReceives s).mgmt = s.mgmt := rfl
@[simp] theorem craneReceives_pending (s : State) : (craneReceives s).pending = s.pending := rfl
@[simp] theorem craneReceives_freeCount (s : State) : (craneReceives s).freeCount = s.freeCount := rfl
@[simp] theorem craneReceives_crane_flight (s : State) : (craneReceives s).crane.flight = s.crane.flight := rfl
@[simp] theorem craneReceives_crane_port (s : State) : (craneReceives s).crane.port = s.crane.port.received := rfl

/-! ### The supply falls -/
@[simp] theorem supplyFalls_pins (s : State) : (supplyFalls s).pins = s.pins := rfl
@[simp] theorem supplyFalls_cab (s : State) : (supplyFalls s).cab = s.cab := rfl
@[simp] theorem supplyFalls_crane (s : State) : (supplyFalls s).crane = s.crane := rfl
@[simp] theorem supplyFalls_scan (s : State) : (supplyFalls s).scan = s.scan := rfl
@[simp] theorem supplyFalls_lau (s : State) : (supplyFalls s).lau = s.lau := rfl
@[simp] theorem supplyFalls_limiter (s : State) : (supplyFalls s).limiter = s.limiter := rfl
@[simp] theorem supplyFalls_demand (s : State) : (supplyFalls s).demand = s.demand := rfl
@[simp] theorem supplyFalls_shaper (s : State) : (supplyFalls s).shaper = s.shaper := rfl
@[simp] theorem supplyFalls_valve (s : State) : (supplyFalls s).valve = s.valve := rfl
@[simp] theorem supplyFalls_weigh (s : State) : (supplyFalls s).weigh = s.weigh := rfl
@[simp] theorem supplyFalls_records (s : State) : (supplyFalls s).records = s.records := rfl
@[simp] theorem supplyFalls_pending (s : State) : (supplyFalls s).pending = s.pending := rfl
@[simp] theorem supplyFalls_freeCount (s : State) : (supplyFalls s).freeCount = s.freeCount := rfl
@[simp] theorem supplyFalls_power (s : State) : (supplyFalls s).power = .heldInReset := rfl

/-! ### A request has been answered -/
@[simp] theorem answeredWith_power (p : Bool) (fr : List Byte) (rest : List (List Byte)) (st : Nat) (d : List Byte) (s : State) :
    (answeredWith p fr rest st d s).power = s.power := rfl
@[simp] theorem answeredWith_pins (p : Bool) (fr : List Byte) (rest : List (List Byte)) (st : Nat) (d : List Byte) (s : State) :
    (answeredWith p fr rest st d s).pins = s.pins := rfl
@[simp] theorem answeredWith_crane (p : Bool) (fr : List Byte) (rest : List (List Byte)) (st : Nat) (d : List Byte) (s : State) :
    (answeredWith p fr rest st d s).crane = s.crane := rfl
@[simp] theorem answeredWith_scan (p : Bool) (fr : List Byte) (rest : List (List Byte)) (st : Nat) (d : List Byte) (s : State) :
    (answeredWith p fr rest st d s).scan = s.scan := rfl
@[simp] theorem answeredWith_lau (p : Bool) (fr : List Byte) (rest : List (List Byte)) (st : Nat) (d : List Byte) (s : State) :
    (answeredWith p fr rest st d s).lau = s.lau := rfl
@[simp] theorem answeredWith_limiter (p : Bool) (fr : List Byte) (rest : List (List Byte)) (st : Nat) (d : List Byte) (s : State) :
    (answeredWith p fr rest st d s).limiter = s.limiter := rfl
@[simp] theorem answeredWith_demand (p : Bool) (fr : List Byte) (rest : List (List Byte)) (st : Nat) (d : List Byte) (s : State) :
    (answeredWith p fr rest st d s).demand = s.demand := rfl
@[simp] theorem answeredWith_shaper (p : Bool) (fr : List Byte) (rest : List (List Byte)) (st : Nat) (d : List Byte) (s : State) :
    (answeredWith p fr rest st d s).shaper = s.shaper := rfl
@[simp] theorem answeredWith_valve (p : Bool) (fr : List Byte) (rest : List (List Byte)) (st : Nat) (d : List Byte) (s : State) :
    (answeredWith p fr rest st d s).valve = s.valve := rfl
@[simp] theorem answeredWith_weigh (p : Bool) (fr : List Byte) (rest : List (List Byte)) (st : Nat) (d : List Byte) (s : State) :
    (answeredWith p fr rest st d s).weigh = s.weigh := rfl
@[simp] theorem answeredWith_records (p : Bool) (fr : List Byte) (rest : List (List Byte)) (st : Nat) (d : List Byte) (s : State) :
    (answeredWith p fr rest st d s).records = s.records := rfl
@[simp] theorem answeredWith_tables (p : Bool) (fr : List Byte) (rest : List (List Byte)) (st : Nat) (d : List Byte) (s : State) :
    (answeredWith p fr rest st d s).tables = s.tables := rfl
@[simp] theorem answeredWith_pending (p : Bool) (fr : List Byte) (rest : List (List Byte)) (st : Nat) (d : List Byte) (s : State) :
    (answeredWith p fr rest st d s).pending = s.pending := rfl
@[simp] theorem answeredWith_freeCount (p : Bool) (fr : List Byte) (rest : List (List Byte)) (st : Nat) (d : List Byte) (s : State) :
    (answeredWith p fr rest st d s).freeCount = s.freeCount := rfl

/-! ### Ports -/

@[simp] theorem Port.sent_up (p : Port) : p.sent.up = p.up := rfl
@[simp] theorem Port.received_up (p : Port) : p.received.up = p.up := rfl
@[simp] theorem Port.sent_mode (p : Port) : p.sent.mode = p.mode := rfl
@[simp] theorem Port.received_mode (p : Port) : p.received.mode = p.mode := rfl
@[simp] theorem Port.sent_joined (p : Port) : p.sent.joined = p.joined := rfl
@[simp] theorem Port.received_joined (p : Port) : p.received.joined = p.joined := rfl

/-- A port is up exactly when it is ACTIVE and joined (R188). -/
theorem Port.up_iff (p : Port) : p.up = true ↔ p.mode = .active ∧ p.joined = true := by
  simp [Port.up]

/-! ### The ends of cycles -/

@[simp] theorem WeighUnit.endCycle_phase (w : WeighUnit) (c : LastCause) : (w.endCycle c).phase = .idle := rfl
@[simp] theorem WeighUnit.endCycle_tare (w : WeighUnit) (c : LastCause) : (w.endCycle c).tare = w.tare := rfl
@[simp] theorem WeighUnit.endCycle_prevGrapple (w : WeighUnit) (c : LastCause) :
    (w.endCycle c).prevGrapple = w.prevGrapple := rfl
@[simp] theorem WeighUnit.endCycle_lastCause (w : WeighUnit) (c : LastCause) : (w.endCycle c).lastCause = c := rfl
@[simp] theorem WeighUnit.endCycle_settleTimer (w : WeighUnit) (c : LastCause) :
    (w.endCycle c).settleTimer = none := rfl
@[simp] theorem WeighUnit.endCycle_windowTimer (w : WeighUnit) (c : LastCause) :
    (w.endCycle c).windowTimer = none := rfl

@[simp] theorem WeighPhase.cycle?_idle : WeighPhase.cycle? .idle = none := rfl
@[simp] theorem WeighPhase.cycle?_armed : WeighPhase.cycle? .armed = none := rfl
@[simp] theorem WeighPhase.cycle?_settling (c : Cycle) : WeighPhase.cycle? (.settling c) = some c := rfl
@[simp] theorem WeighPhase.cycle?_sampling (c : Cycle) : WeighPhase.cycle? (.sampling c) = some c := rfl
@[simp] theorem WeighPhase.running_idle : WeighPhase.running .idle = false := rfl
@[simp] theorem WeighPhase.running_armed : WeighPhase.running .armed = false := rfl
@[simp] theorem WeighPhase.running_settling (c : Cycle) : WeighPhase.running (.settling c) = true := rfl
@[simp] theorem WeighPhase.running_sampling (c : Cycle) : WeighPhase.running (.sampling c) = true := rfl

/-! ### Rows of six -/

@[simp] theorem Six.get_build {α : Type} (f : Fin 6 → α) (i : Fin 6) : (Six.build f).get i = f i := by
  fin_cases i <;> rfl

@[simp] theorem Six.get_same {α : Type} (a : α) (i : Fin 6) : (Six.same a).get i = a := by
  fin_cases i <;> rfl

/-- Two rows of six with the same members are the same row. -/
theorem Six.eq_of_get {α : Type} {x y : Six α} (h : ∀ i, x.get i = y.get i) : x = y := by
  cases x; cases y
  have h0 := h 0; have h1 := h 1; have h2 := h 2; have h3 := h 3; have h4 := h 4; have h5 := h 5
  simp [Six.get] at h0 h1 h2 h3 h4 h5
  simp [h0, h1, h2, h3, h4, h5]

/-- A test holds of some member exactly when it holds of the member at some index. -/
theorem Six.any_iff {α : Type} (x : Six α) (p : α → Bool) : x.any p = true ↔ ∃ i, p (x.get i) = true := by
  constructor
  · intro h
    simp only [Six.any, Bool.or_eq_true] at h
    rcases h with ((((h | h) | h) | h) | h) | h
    · exact ⟨0, h⟩
    · exact ⟨1, h⟩
    · exact ⟨2, h⟩
    · exact ⟨3, h⟩
    · exact ⟨4, h⟩
    · exact ⟨5, h⟩
  · rintro ⟨i, h⟩
    fin_cases i <;> simp_all [Six.any, Six.get]

/-! ### Images of a kind -/

@[simp] theorem TableStore.kind_setKind_self (t : TableStore) (k : Kind) (x : KindTable) :
    (t.setKind k x).kind k = x := by
  cases k <;> rfl

/-- Setting the images of a kind leaves those of another kind. -/
theorem TableStore.kind_setKind_of_ne (t : TableStore) {j k : Kind} (x : KindTable) (h : j ≠ k) :
    (t.setKind k x).kind j = t.kind j := by
  cases j <;> cases k <;> first | rfl | exact absurd rfl h

@[simp] theorem TableStore.setKind_cursorKind (t : TableStore) (k : Kind) (x : KindTable) :
    (t.setKind k x).cursorKind = t.cursorKind := by
  cases k <;> rfl

@[simp] theorem TableStore.setKind_cursorIndex (t : TableStore) (k : Kind) (x : KindTable) :
    (t.setKind k x).cursorIndex = t.cursorIndex := by
  cases k <;> rfl

@[simp] theorem TableStore.setKind_mode (t : TableStore) (k : Kind) (x : KindTable) :
    (t.setKind k x).mode = t.mode := by
  cases k <;> rfl

@[simp] theorem TableStore.setKind_protectSet (t : TableStore) (k : Kind) (x : KindTable) :
    (t.setKind k x).protectSet = t.protectSet := by
  cases k <;> rfl

@[simp] theorem TableStore.setKind_held (t : TableStore) (k : Kind) (x : KindTable) :
    (t.setKind k x).held = t.held := by
  cases k <;> rfl

@[simp] theorem TableStore.setKind_keyLevel (t : TableStore) (k : Kind) (x : KindTable) :
    (t.setKind k x).keyLevel = t.keyLevel := by
  cases k <;> rfl

@[simp] theorem TableStore.setKind_keyFilter (t : TableStore) (k : Kind) (x : KindTable) :
    (t.setKind k x).keyFilter = t.keyFilter := by
  cases k <;> rfl

@[simp] theorem TableStore.setKind_persist (t : TableStore) (k : Kind) (x : KindTable) :
    (t.setKind k x).persist = t.persist := by
  cases k <;> rfl

@[simp] theorem TableStore.setKind_persistResult (t : TableStore) (k : Kind) (x : KindTable) :
    (t.setKind k x).persistResult = t.persistResult := by
  cases k <;> rfl

@[simp] theorem TableStore.setKind_failedItems (t : TableStore) (k : Kind) (x : KindTable) :
    (t.setKind k x).failedItems = t.failedItems := by
  cases k <;> rfl

@[simp] theorem TableStore.setKind_stored (t : TableStore) (k : Kind) (x : KindTable) :
    (t.setKind k x).stored = t.stored := by
  cases k <;> rfl

/-! ### Steps of a running part -/

/-- A running part takes the step. -/
@[simp] theorem whileRunning_running {s : State} (t : State) (h : s.power = .running) :
    whileRunning s t = .next t := by
  simp [whileRunning, h]

/-- A part held in reset takes nothing. -/
@[simp] theorem whileRunning_held {s : State} (t : State) (h : s.power = .heldInReset) :
    whileRunning s t = .next s := by
  simp [whileRunning, h]

/-- What a step of the part can answer: the step's state while running, the same state while held in reset. -/
theorem whileRunning_cases {s t r : State} (h : whileRunning s t = .next r) :
    (s.power = .running ∧ r = t) ∨ (s.power ≠ .running ∧ r = s) := by
  unfold whileRunning at h
  split at h
  · rename_i hp
    cases h
    exact .inl ⟨hp, rfl⟩
  · rename_i hp
    cases h
    exact .inr ⟨hp, rfl⟩

end Sys2Proof.Machine
end

