-- ==== Sys2Proof/Laws/Transmit.lean ====
section
/-! SUPPORT. The shared operations said once: what the two transmitters start, what an abort and a move of the crane
state do, and what the serving of a request leaves. -/

namespace Sys2Proof.Machine

/-- What a free Cab Port starts: `CabStarts` says everything that `startCab` can do. -/
theorem startCab_spec (u : State) : CabStarts u (startCab u) := by
  unfold CabStarts startCab cabFree Port.up
  by_cases h : u.cab.port.mode = .active ∧ u.cab.port.joined = true ∧ u.cab.flight = none
  · obtain ⟨h1, h2, h3⟩ := h
    simp only [h1, h2, h3, and_self, if_true, beq_self_eq_true, Bool.true_and, Option.isNone_none]
    split
    · rfl
    · split <;> rfl
  · have : (u.cab.port.mode == PortMode.active && u.cab.port.joined && u.cab.flight.isNone) = false := by
      by_contra hc
      simp only [Bool.not_eq_false, Bool.and_eq_true, beq_iff_eq, Option.isNone_iff_eq_none] at hc
      exact h ⟨hc.1.1, hc.1.2, hc.2⟩
    rw [if_neg h, this, if_neg (by simp)]

/-- A state that `CabStarts` allows is the one that `startCab` gives. -/
theorem CabStarts.eq {u t : State} (h : CabStarts u t) : t = startCab u := by
  have hs := startCab_spec u
  unfold CabStarts at h hs
  split at h
  · split at h
    · simp_all
    · split at h <;> simp_all
  · simp_all

/-! ### A free Cab Port starts what waits -/

@[simp] theorem startCab_power (s : State) : (startCab s).power = s.power := by
  unfold startCab; split <;> [skip; rfl]; split <;> [rfl; skip]; split <;> rfl

@[simp] theorem startCab_pins (s : State) : (startCab s).pins = s.pins := by
  unfold startCab; split <;> [skip; rfl]; split <;> [rfl; skip]; split <;> rfl

@[simp] theorem startCab_crane (s : State) : (startCab s).crane = s.crane := by
  unfold startCab; split <;> [skip; rfl]; split <;> [rfl; skip]; split <;> rfl

@[simp] theorem startCab_scan (s : State) : (startCab s).scan = s.scan := by
  unfold startCab; split <;> [skip; rfl]; split <;> [rfl; skip]; split <;> rfl

@[simp] theorem startCab_lau (s : State) : (startCab s).lau = s.lau := by
  unfold startCab; split <;> [skip; rfl]; split <;> [rfl; skip]; split <;> rfl

@[simp] theorem startCab_limiter (s : State) : (startCab s).limiter = s.limiter := by
  unfold startCab; split <;> [skip; rfl]; split <;> [rfl; skip]; split <;> rfl

@[simp] theorem startCab_demand (s : State) : (startCab s).demand = s.demand := by
  unfold startCab; split <;> [skip; rfl]; split <;> [rfl; skip]; split <;> rfl

@[simp] theorem startCab_shaper (s : State) : (startCab s).shaper = s.shaper := by
  unfold startCab; split <;> [skip; rfl]; split <;> [rfl; skip]; split <;> rfl

@[simp] theorem startCab_valve (s : State) : (startCab s).valve = s.valve := by
  unfold startCab; split <;> [skip; rfl]; split <;> [rfl; skip]; split <;> rfl

@[simp] theorem startCab_weigh (s : State) : (startCab s).weigh = s.weigh := by
  unfold startCab; split <;> [skip; rfl]; split <;> [rfl; skip]; split <;> rfl

@[simp] theorem startCab_records (s : State) : (startCab s).records = s.records := by
  unfold startCab; split <;> [skip; rfl]; split <;> [rfl; skip]; split <;> rfl

@[simp] theorem startCab_tables (s : State) : (startCab s).tables = s.tables := by
  unfold startCab; split <;> [skip; rfl]; split <;> [rfl; skip]; split <;> rfl

@[simp] theorem startCab_pending (s : State) : (startCab s).pending = s.pending := by
  unfold startCab; split <;> [skip; rfl]; split <;> [rfl; skip]; split <;> rfl

@[simp] theorem startCab_freeCount (s : State) : (startCab s).freeCount = s.freeCount := by
  unfold startCab; split <;> [skip; rfl]; split <;> [rfl; skip]; split <;> rfl

@[simp] theorem startCab_cab_port (s : State) : (startCab s).cab.port = s.cab.port := by
  unfold startCab; split <;> [skip; rfl]; split <;> [rfl; skip]; split <;> rfl

@[simp] theorem startCab_cab_na (s : State) : (startCab s).cab.na = s.cab.na := by
  unfold startCab; split <;> [skip; rfl]; split <;> [rfl; skip]; split <;> rfl

@[simp] theorem startCab_cab_requests (s : State) : (startCab s).cab.requests = s.cab.requests := by
  unfold startCab; split <;> [skip; rfl]; split <;> [rfl; skip]; split <;> rfl

@[simp] theorem startCab_cab_responses (s : State) : (startCab s).cab.responses = s.cab.responses := by
  unfold startCab; split <;> [skip; rfl]; split <;> [rfl; skip]; split <;> rfl

@[simp] theorem startCab_mgmt_prepare (s : State) : (startCab s).mgmt.prepare = s.mgmt.prepare := by
  unfold startCab; split <;> [skip; rfl]; split <;> [rfl; skip]; split <;> rfl

@[simp] theorem startCab_mgmt_flags (s : State) : (startCab s).mgmt.flags = s.mgmt.flags := by
  unfold startCab; split <;> [skip; rfl]; split <;> [rfl; skip]; split <;> rfl

@[simp] theorem startCab_mgmt_mask (s : State) : (startCab s).mgmt.mask = s.mgmt.mask := by
  unfold startCab; split <;> [skip; rfl]; split <;> [rfl; skip]; split <;> rfl

@[simp] theorem startCab_mgmt_resetCause (s : State) : (startCab s).mgmt.resetCause = s.mgmt.resetCause := by
  unfold startCab; split <;> [skip; rfl]; split <;> [rfl; skip]; split <;> rfl

@[simp] theorem startCab_mgmt_softResetPending (s : State) : (startCab s).mgmt.softResetPending = s.mgmt.softResetPending := by
  unfold startCab; split <;> [skip; rfl]; split <;> [rfl; skip]; split <;> rfl

@[simp] theorem startCab_mgmt_snapshots (s : State) : (startCab s).mgmt.snapshots = s.mgmt.snapshots := by
  unfold startCab; split <;> [skip; rfl]; split <;> [rfl; skip]; split <;> rfl

/-! ### Either frame starts -/

@[simp] theorem startCabEither_power (s : State) : (startCabEither s).power = s.power := by
  unfold startCabEither; split <;> rfl

@[simp] theorem startCabEither_pins (s : State) : (startCabEither s).pins = s.pins := by
  unfold startCabEither; split <;> rfl

@[simp] theorem startCabEither_crane (s : State) : (startCabEither s).crane = s.crane := by
  unfold startCabEither; split <;> rfl

@[simp] theorem startCabEither_scan (s : State) : (startCabEither s).scan = s.scan := by
  unfold startCabEither; split <;> rfl

@[simp] theorem startCabEither_lau (s : State) : (startCabEither s).lau = s.lau := by
  unfold startCabEither; split <;> rfl

@[simp] theorem startCabEither_limiter (s : State) : (startCabEither s).limiter = s.limiter := by
  unfold startCabEither; split <;> rfl

@[simp] theorem startCabEither_demand (s : State) : (startCabEither s).demand = s.demand := by
  unfold startCabEither; split <;> rfl

@[simp] theorem startCabEither_shaper (s : State) : (startCabEither s).shaper = s.shaper := by
  unfold startCabEither; split <;> rfl

@[simp] theorem startCabEither_valve (s : State) : (startCabEither s).valve = s.valve := by
  unfold startCabEither; split <;> rfl

@[simp] theorem startCabEither_weigh (s : State) : (startCabEither s).weigh = s.weigh := by
  unfold startCabEither; split <;> rfl

@[simp] theorem startCabEither_records (s : State) : (startCabEither s).records = s.records := by
  unfold startCabEither; split <;> rfl

@[simp] theorem startCabEither_tables (s : State) : (startCabEither s).tables = s.tables := by
  unfold startCabEither; split <;> rfl

@[simp] theorem startCabEither_pending (s : State) : (startCabEither s).pending = s.pending := by
  unfold startCabEither; split <;> rfl

@[simp] theorem startCabEither_cab_port (s : State) : (startCabEither s).cab.port = s.cab.port := by
  unfold startCabEither; split <;> rfl

@[simp] theorem startCabEither_cab_na (s : State) : (startCabEither s).cab.na = s.cab.na := by
  unfold startCabEither; split <;> rfl

@[simp] theorem startCabEither_cab_requests (s : State) : (startCabEither s).cab.requests = s.cab.requests := by
  unfold startCabEither; split <;> rfl

@[simp] theorem startCabEither_cab_responses (s : State) : (startCabEither s).cab.responses = s.cab.responses := by
  unfold startCabEither; split <;> rfl

@[simp] theorem startCabEither_mgmt_prepare (s : State) : (startCabEither s).mgmt.prepare = s.mgmt.prepare := by
  unfold startCabEither; split <;> rfl

@[simp] theorem startCabEither_mgmt_flags (s : State) : (startCabEither s).mgmt.flags = s.mgmt.flags := by
  unfold startCabEither; split <;> rfl

@[simp] theorem startCabEither_mgmt_mask (s : State) : (startCabEither s).mgmt.mask = s.mgmt.mask := by
  unfold startCabEither; split <;> rfl

@[simp] theorem startCabEither_mgmt_resetCause (s : State) : (startCabEither s).mgmt.resetCause = s.mgmt.resetCause := by
  unfold startCabEither; split <;> rfl

@[simp] theorem startCabEither_mgmt_softResetPending (s : State) : (startCabEither s).mgmt.softResetPending = s.mgmt.softResetPending := by
  unfold startCabEither; split <;> rfl

@[simp] theorem startCabEither_mgmt_snapshots (s : State) : (startCabEither s).mgmt.snapshots = s.mgmt.snapshots := by
  unfold startCabEither; split <;> rfl

/-! ### A pending valve frame starts -/

/-- The section byte is the quotient by 8 wherever a signed byte holds it (R98). -/
theorem valveByte_toInt {output : Int} (hl : -1031 ≤ output) (hu : output ≤ 1023) :
    (valveByte output).toInt = Int.tdiv output 8 := by
  have fits : -128 ≤ Int.tdiv output 8 ∧ Int.tdiv output 8 ≤ 127 := by
    rcases Int.le_total 0 output with h | h
    · rw [Int.tdiv_eq_ediv_of_nonneg h]; omega
    · rw [← Int.neg_neg output, Int.neg_tdiv, Int.tdiv_eq_ediv_of_nonneg (Int.neg_nonneg.2 h)]; omega
  unfold valveByte
  rw [if_pos fits, BitVec.toInt_ofInt]
  simp only [Int.bmod]
  omega

@[simp] theorem startValve_power (s : State) : (startValve s).power = s.power := by
  unfold startValve; split <;> rfl

@[simp] theorem startValve_pins (s : State) : (startValve s).pins = s.pins := by
  unfold startValve; split <;> rfl

@[simp] theorem startValve_cab (s : State) : (startValve s).cab = s.cab := by
  unfold startValve; split <;> rfl

@[simp] theorem startValve_scan (s : State) : (startValve s).scan = s.scan := by
  unfold startValve; split <;> rfl

@[simp] theorem startValve_lau (s : State) : (startValve s).lau = s.lau := by
  unfold startValve; split <;> rfl

@[simp] theorem startValve_limiter (s : State) : (startValve s).limiter = s.limiter := by
  unfold startValve; split <;> rfl

@[simp] theorem startValve_demand (s : State) : (startValve s).demand = s.demand := by
  unfold startValve; split <;> rfl

@[simp] theorem startValve_shaper (s : State) : (startValve s).shaper = s.shaper := by
  unfold startValve; split <;> rfl

@[simp] theorem startValve_weigh (s : State) : (startValve s).weigh = s.weigh := by
  unfold startValve; split <;> rfl

@[simp] theorem startValve_records (s : State) : (startValve s).records = s.records := by
  unfold startValve; split <;> rfl

@[simp] theorem startValve_tables (s : State) : (startValve s).tables = s.tables := by
  unfold startValve; split <;> rfl

@[simp] theorem startValve_mgmt (s : State) : (startValve s).mgmt = s.mgmt := by
  unfold startValve; split <;> rfl

@[simp] theorem startValve_pending (s : State) : (startValve s).pending = s.pending := by
  unfold startValve; split <;> rfl

@[simp] theorem startValve_freeCount (s : State) : (startValve s).freeCount = s.freeCount := by
  unfold startValve; split <;> rfl

@[simp] theorem startValve_crane_port (s : State) : (startValve s).crane.port = s.crane.port := by
  unfold startValve; split <;> rfl

@[simp] theorem startValve_valve_refreshTimer (s : State) :
    (startValve s).valve.refreshTimer = s.valve.refreshTimer := by
  unfold startValve; split <;> rfl

/-! ### A valve frame is requested -/

@[simp] theorem requestValve_power (s : State) : (requestValve s).power = s.power := by
  unfold requestValve; simp

@[simp] theorem requestValve_pins (s : State) : (requestValve s).pins = s.pins := by
  unfold requestValve; simp

@[simp] theorem requestValve_cab (s : State) : (requestValve s).cab = s.cab := by
  unfold requestValve; simp

@[simp] theorem requestValve_scan (s : State) : (requestValve s).scan = s.scan := by
  unfold requestValve; simp

@[simp] theorem requestValve_lau (s : State) : (requestValve s).lau = s.lau := by
  unfold requestValve; simp

@[simp] theorem requestValve_limiter (s : State) : (requestValve s).limiter = s.limiter := by
  unfold requestValve; simp

@[simp] theorem requestValve_demand (s : State) : (requestValve s).demand = s.demand := by
  unfold requestValve; simp

@[simp] theorem requestValve_shaper (s : State) : (requestValve s).shaper = s.shaper := by
  unfold requestValve; simp

@[simp] theorem requestValve_weigh (s : State) : (requestValve s).weigh = s.weigh := by
  unfold requestValve; simp

@[simp] theorem requestValve_records (s : State) : (requestValve s).records = s.records := by
  unfold requestValve; simp

@[simp] theorem requestValve_tables (s : State) : (requestValve s).tables = s.tables := by
  unfold requestValve; simp

@[simp] theorem requestValve_mgmt (s : State) : (requestValve s).mgmt = s.mgmt := by
  unfold requestValve; simp

@[simp] theorem requestValve_pending (s : State) : (requestValve s).pending = s.pending := by
  unfold requestValve; simp

@[simp] theorem requestValve_freeCount (s : State) : (requestValve s).freeCount = s.freeCount := by
  unfold requestValve; simp

@[simp] theorem requestValve_crane_port (s : State) : (requestValve s).crane.port = s.crane.port := by
  unfold requestValve; simp

@[simp] theorem requestValve_valve_refreshTimer (s : State) :
    (requestValve s).valve.refreshTimer = s.valve.refreshTimer := by
  unfold requestValve; simp

/-- What a request of a valve frame does: it sets the pending flag, or starts the frame at once (R99, R100). -/
theorem requestValve_eq (u : State) : requestValve u = valveRequested u := by
  unfold requestValve startValve valveRequested
  by_cases h : u.crane.port.mode = .active ∧ u.crane.port.joined = true ∧ u.crane.flight = none
  · obtain ⟨h1, h2, h3⟩ := h
    have hu : u.crane.port.up = true := (Port.up_iff _).2 ⟨h1, h2⟩
    simp only [h1, h2, h3, hu, and_self, if_true, Option.isNone_none, Bool.and_self]
    rfl
  · have : (u.crane.flight.isNone && u.crane.port.up) = false := by
      by_contra hc
      simp only [Bool.not_eq_false, Bool.and_eq_true, Option.isNone_iff_eq_none, Port.up_iff] at hc
      exact h ⟨hc.2.1, hc.2.2, hc.1⟩
    rw [if_neg h, if_neg (by simp only [Bool.true_and]; simp [this])]

/-! ### A cycle is aborted -/

@[simp] theorem abortCycle_power (c : LastCause) (s : State) : (abortCycle c s).power = s.power := by
  unfold abortCycle; split <;> rfl

@[simp] theorem abortCycle_pins (c : LastCause) (s : State) : (abortCycle c s).pins = s.pins := by
  unfold abortCycle; split <;> rfl

@[simp] theorem abortCycle_cab (c : LastCause) (s : State) : (abortCycle c s).cab = s.cab := by
  unfold abortCycle; split <;> rfl

@[simp] theorem abortCycle_crane (c : LastCause) (s : State) : (abortCycle c s).crane = s.crane := by
  unfold abortCycle; split <;> rfl

@[simp] theorem abortCycle_scan (c : LastCause) (s : State) : (abortCycle c s).scan = s.scan := by
  unfold abortCycle; split <;> rfl

@[simp] theorem abortCycle_lau (c : LastCause) (s : State) : (abortCycle c s).lau = s.lau := by
  unfold abortCycle; split <;> rfl

@[simp] theorem abortCycle_limiter (c : LastCause) (s : State) : (abortCycle c s).limiter = s.limiter := by
  unfold abortCycle; split <;> rfl

@[simp] theorem abortCycle_demand (c : LastCause) (s : State) : (abortCycle c s).demand = s.demand := by
  unfold abortCycle; split <;> rfl

@[simp] theorem abortCycle_shaper (c : LastCause) (s : State) : (abortCycle c s).shaper = s.shaper := by
  unfold abortCycle; split <;> rfl

@[simp] theorem abortCycle_valve (c : LastCause) (s : State) : (abortCycle c s).valve = s.valve := by
  unfold abortCycle; split <;> rfl

@[simp] theorem abortCycle_records (c : LastCause) (s : State) : (abortCycle c s).records = s.records := by
  unfold abortCycle; split <;> rfl

@[simp] theorem abortCycle_tables (c : LastCause) (s : State) : (abortCycle c s).tables = s.tables := by
  unfold abortCycle; split <;> rfl

@[simp] theorem abortCycle_pending (c : LastCause) (s : State) : (abortCycle c s).pending = s.pending := by
  unfold abortCycle; split <;> rfl

@[simp] theorem abortCycle_freeCount (c : LastCause) (s : State) : (abortCycle c s).freeCount = s.freeCount := by
  unfold abortCycle; split <;> rfl

@[simp] theorem abortCycle_mgmt_prepare (c : LastCause) (s : State) :
    (abortCycle c s).mgmt.prepare = s.mgmt.prepare := by
  unfold abortCycle; split <;> rfl

@[simp] theorem abortCycle_mgmt_mask (c : LastCause) (s : State) :
    (abortCycle c s).mgmt.mask = s.mgmt.mask := by
  unfold abortCycle; split <;> rfl

@[simp] theorem abortCycle_mgmt_resetCause (c : LastCause) (s : State) :
    (abortCycle c s).mgmt.resetCause = s.mgmt.resetCause := by
  unfold abortCycle; split <;> rfl

@[simp] theorem abortCycle_mgmt_softResetPending (c : LastCause) (s : State) :
    (abortCycle c s).mgmt.softResetPending = s.mgmt.softResetPending := by
  unfold abortCycle; split <;> rfl

@[simp] theorem abortCycle_mgmt_snapshots (c : LastCause) (s : State) :
    (abortCycle c s).mgmt.snapshots = s.mgmt.snapshots := by
  unfold abortCycle; split <;> rfl

@[simp] theorem abortCycle_weigh_tare (c : LastCause) (s : State) :
    (abortCycle c s).weigh.tare = s.weigh.tare := by
  unfold abortCycle; split <;> rfl

@[simp] theorem abortCycle_weigh_prevGrapple (c : LastCause) (s : State) :
    (abortCycle c s).weigh.prevGrapple = s.weigh.prevGrapple := by
  unfold abortCycle; split <;> rfl

/-- What an aborting event does (R125). -/
theorem abortCycle_eq (c : LastCause) (s : State) : abortCycle c s = abortedIfRunning c s := by
  unfold abortCycle abortedIfRunning
  cases h : s.weigh.phase <;> simp <;> rfl

/-- After an aborting event no cycle runs. -/
theorem abortCycle_not_running (c : LastCause) (s : State) : (abortCycle c s).weigh.phase.cycle? = none := by
  unfold abortCycle
  cases h : s.weigh.phase <;> simp [h]

/-! ### The crane state moves -/

@[simp] theorem moveCrane_power (d : CraneState) (s : State) : (moveCrane d s).power = s.power := by
  unfold moveCrane; simp only; split <;> simp

@[simp] theorem moveCrane_pins (d : CraneState) (s : State) : (moveCrane d s).pins = s.pins := by
  unfold moveCrane; simp only; split <;> simp

@[simp] theorem moveCrane_cab (d : CraneState) (s : State) : (moveCrane d s).cab = s.cab := by
  unfold moveCrane; simp only; split <;> simp

@[simp] theorem moveCrane_crane (d : CraneState) (s : State) : (moveCrane d s).crane = s.crane := by
  unfold moveCrane; simp only; split <;> simp

@[simp] theorem moveCrane_scan (d : CraneState) (s : State) : (moveCrane d s).scan = s.scan := by
  unfold moveCrane; simp only; split <;> simp

@[simp] theorem moveCrane_lau (d : CraneState) (s : State) : (moveCrane d s).lau = s.lau := by
  unfold moveCrane; simp only; split <;> simp

@[simp] theorem moveCrane_limiter (d : CraneState) (s : State) : (moveCrane d s).limiter = s.limiter := by
  unfold moveCrane; simp only; split <;> simp

@[simp] theorem moveCrane_shaper (d : CraneState) (s : State) : (moveCrane d s).shaper = s.shaper := by
  unfold moveCrane; simp only; split <;> simp

@[simp] theorem moveCrane_valve (d : CraneState) (s : State) : (moveCrane d s).valve = s.valve := by
  unfold moveCrane; simp only; split <;> simp

@[simp] theorem moveCrane_records (d : CraneState) (s : State) : (moveCrane d s).records = s.records := by
  unfold moveCrane; simp only; split <;> simp

@[simp] theorem moveCrane_tables (d : CraneState) (s : State) : (moveCrane d s).tables = s.tables := by
  unfold moveCrane; simp only; split <;> simp

@[simp] theorem moveCrane_pending (d : CraneState) (s : State) : (moveCrane d s).pending = s.pending := by
  unfold moveCrane; simp only; split <;> simp

@[simp] theorem moveCrane_freeCount (d : CraneState) (s : State) : (moveCrane d s).freeCount = s.freeCount := by
  unfold moveCrane; simp only; split <;> simp

@[simp] theorem moveCrane_demand (d : CraneState) (s : State) :
    (moveCrane d s).demand = { s.demand with crane := d } := by
  unfold moveCrane; simp only; split <;> simp

@[simp] theorem moveCrane_mgmt_prepare (d : CraneState) (s : State) :
    (moveCrane d s).mgmt.prepare = s.mgmt.prepare := by
  unfold moveCrane; simp only; split <;> simp

@[simp] theorem moveCrane_mgmt_mask (d : CraneState) (s : State) :
    (moveCrane d s).mgmt.mask = s.mgmt.mask := by
  unfold moveCrane; simp only; split <;> simp

@[simp] theorem moveCrane_mgmt_resetCause (d : CraneState) (s : State) :
    (moveCrane d s).mgmt.resetCause = s.mgmt.resetCause := by
  unfold moveCrane; simp only; split <;> simp

@[simp] theorem moveCrane_mgmt_softResetPending (d : CraneState) (s : State) :
    (moveCrane d s).mgmt.softResetPending = s.mgmt.softResetPending := by
  unfold moveCrane; simp only; split <;> simp

@[simp] theorem moveCrane_mgmt_snapshots (d : CraneState) (s : State) :
    (moveCrane d s).mgmt.snapshots = s.mgmt.snapshots := by
  unfold moveCrane; simp only; split <;> simp

@[simp] theorem moveCrane_weigh_tare (d : CraneState) (s : State) :
    (moveCrane d s).weigh.tare = s.weigh.tare := by
  unfold moveCrane; simp only; split <;> simp

@[simp] theorem moveCrane_weigh_prevGrapple (d : CraneState) (s : State) :
    (moveCrane d s).weigh.prevGrapple = s.weigh.prevGrapple := by
  unfold moveCrane; simp only; split <;> simp

/-- What a change of the crane state does (R80, R125). -/
theorem moveCrane_eq (d : CraneState) (s : State) : moveCrane d s = craneMoved d s := by
  unfold moveCrane craneMoved
  simp only [abortCycle_eq]

/-! ### An ACTIVE crane becomes READY -/

@[simp] theorem activeToReady_power (s : State) : (activeToReady s).power = s.power := by
  unfold activeToReady; split <;> simp

@[simp] theorem activeToReady_pins (s : State) : (activeToReady s).pins = s.pins := by
  unfold activeToReady; split <;> simp

@[simp] theorem activeToReady_cab (s : State) : (activeToReady s).cab = s.cab := by
  unfold activeToReady; split <;> simp

@[simp] theorem activeToReady_crane (s : State) : (activeToReady s).crane = s.crane := by
  unfold activeToReady; split <;> simp

@[simp] theorem activeToReady_scan (s : State) : (activeToReady s).scan = s.scan := by
  unfold activeToReady; split <;> simp

@[simp] theorem activeToReady_lau (s : State) : (activeToReady s).lau = s.lau := by
  unfold activeToReady; split <;> simp

@[simp] theorem activeToReady_limiter (s : State) : (activeToReady s).limiter = s.limiter := by
  unfold activeToReady; split <;> simp

@[simp] theorem activeToReady_shaper (s : State) : (activeToReady s).shaper = s.shaper := by
  unfold activeToReady; split <;> simp

@[simp] theorem activeToReady_valve (s : State) : (activeToReady s).valve = s.valve := by
  unfold activeToReady; split <;> simp

@[simp] theorem activeToReady_records (s : State) : (activeToReady s).records = s.records := by
  unfold activeToReady; split <;> simp

@[simp] theorem activeToReady_tables (s : State) : (activeToReady s).tables = s.tables := by
  unfold activeToReady; split <;> simp

@[simp] theorem activeToReady_pending (s : State) : (activeToReady s).pending = s.pending := by
  unfold activeToReady; split <;> simp

@[simp] theorem activeToReady_freeCount (s : State) : (activeToReady s).freeCount = s.freeCount := by
  unfold activeToReady; split <;> simp

@[simp] theorem activeToReady_demand_owner (s : State) :
    (activeToReady s).demand.owner = s.demand.owner := by
  unfold activeToReady; split <;> simp

@[simp] theorem activeToReady_demand_targets (s : State) :
    (activeToReady s).demand.targets = s.demand.targets := by
  unfold activeToReady; split <;> simp

@[simp] theorem activeToReady_demand_timer (s : State) :
    (activeToReady s).demand.timer = s.demand.timer := by
  unfold activeToReady; split <;> simp

@[simp] theorem activeToReady_demand_weighCab (s : State) :
    (activeToReady s).demand.weighCab = s.demand.weighCab := by
  unfold activeToReady; split <;> simp

@[simp] theorem activeToReady_demand_weighAux (s : State) :
    (activeToReady s).demand.weighAux = s.demand.weighAux := by
  unfold activeToReady; split <;> simp

@[simp] theorem activeToReady_demand_presence (s : State) :
    (activeToReady s).demand.presence = s.demand.presence := by
  unfold activeToReady; split <;> simp

@[simp] theorem activeToReady_demand_presenceFilter (s : State) :
    (activeToReady s).demand.presenceFilter = s.demand.presenceFilter := by
  unfold activeToReady; split <;> simp

@[simp] theorem activeToReady_mgmt_prepare (s : State) : (activeToReady s).mgmt.prepare = s.mgmt.prepare := by
  unfold activeToReady; split <;> simp

@[simp] theorem activeToReady_mgmt_mask (s : State) : (activeToReady s).mgmt.mask = s.mgmt.mask := by
  unfold activeToReady; split <;> simp

@[simp] theorem activeToReady_mgmt_resetCause (s : State) : (activeToReady s).mgmt.resetCause = s.mgmt.resetCause := by
  unfold activeToReady; split <;> simp

@[simp] theorem activeToReady_mgmt_softResetPending (s : State) : (activeToReady s).mgmt.softResetPending = s.mgmt.softResetPending := by
  unfold activeToReady; split <;> simp

@[simp] theorem activeToReady_mgmt_snapshots (s : State) : (activeToReady s).mgmt.snapshots = s.mgmt.snapshots := by
  unfold activeToReady; split <;> simp

@[simp] theorem activeToReady_weigh_tare (s : State) : (activeToReady s).weigh.tare = s.weigh.tare := by
  unfold activeToReady; split <;> simp

@[simp] theorem activeToReady_weigh_prevGrapple (s : State) : (activeToReady s).weigh.prevGrapple = s.weigh.prevGrapple := by
  unfold activeToReady; split <;> simp

/-- An ACTIVE crane becomes READY, and no other crane state changes (R66, R70, R78, R79). -/
theorem activeToReady_eq (s : State) : activeToReady s = activeSentToReady s := by
  unfold activeToReady activeSentToReady
  simp only [moveCrane_eq]

/-- After it the crane is not ACTIVE. -/
theorem activeToReady_not_active (s : State) : (activeToReady s).demand.crane ≠ .active := by
  unfold activeToReady
  split
  · simp
  · assumption

/-! ### Serving a request -/

/-- Everything that the serving of a request leaves: with a decision that leaves the Cab Port as it stands, the answer
is appended and the port starts what it may (R174, R181, R185). -/
theorem serve_spec {req : Option Request} {s : State} {frame : List Byte} {rest : List (List Byte)}
    (h : Serving req s frame rest) (p : Bool) (d : List Byte → State → State × Reply)
    (hcab : (d frame { s with cab := { s.cab with requests := rest } }).1.cab = { s.cab with requests := rest }) :
    CabAnswers s
      (answeredWith p frame rest (d frame { s with cab := { s.cab with requests := rest } }).2.status.code
        (d frame { s with cab := { s.cab with requests := rest } }).2.data
        (d frame { s with cab := { s.cab with requests := rest } }).1)
      (serve req p d s) := by
  have hc := hcab
  have ht : canTake s = true := by simp [canTake, h.room, h.noReset]
  unfold serve
  rw [h.oldest]
  simp only [ht, h.code, and_self, if_true]
  generalize hr : d frame { s with cab := { s.cab with requests := rest } } = r at *
  have hfree : cabFree s = true ↔ (s.cab.port.mode = .active ∧ s.cab.port.joined = true ∧ s.cab.flight = none) := by
    simp [cabFree, Port.up, and_assoc]
  have hu : answeredWith p frame rest r.2.status.code r.2.data r.1 =
      { r.1 with
        cab := { r.1.cab with responses := r.1.cab.responses ++ [responseTo frame r.2] }
        mgmt := { r.1.mgmt with prepare := p } } := by
    simp only [answeredWith, hc, responseTo, byteOf]
  rw [hu]
  unfold CabAnswers
  split
  · rename_i hcond
    rw [← hfree] at hcond
    rw [if_pos hcond]
    unfold startCabEither startNotice startResponse noticeContent
    simp only
    split
    · exact .inr rfl
    · exact .inl rfl
  · rename_i hcond
    rw [← hfree] at hcond
    rw [if_neg hcond]
    exact startCab_spec _

/-- Where the decision requests no notice, the answer starts on a free port, and there is no choice. -/
theorem CabAnswers.starts {s u t : State} (h : CabAnswers s u t)
    (hn : s.mgmt.noticePending = false → u.mgmt.noticePending = false) : CabStarts u t := by
  unfold CabAnswers at h
  split at h
  · rename_i hc
    have := hn hc.2.2.1
    simp [this] at hc
  · exact h

/-- The serving of a request by what its decision gives (R174, R185). -/
theorem serve_answers {req : Option Request} {s : State} {frame : List Byte} {rest : List (List Byte)}
    (h : Serving req s frame rest) {p : Bool} {d : List Byte → State → State × Reply} {w : State} {st : Status}
    {data : List Byte} (hw : w.cab = s.cab)
    (hd : d frame { s with cab := { s.cab with requests := rest } } =
      ({ w with cab := { w.cab with requests := rest } }, { status := st, data := data })) :
    CabAnswers s (answeredWith p frame rest st.code data w) (serve req p d s) := by
  have := serve_spec h p d (by rw [hd, hw])
  rw [hd] at this
  exact this

/-- The serving of a request whose decision requests no notice: there is no choice (R185). -/
theorem serve_starts {req : Option Request} {s : State} {frame : List Byte} {rest : List (List Byte)}
    (h : Serving req s frame rest) {p : Bool} {d : List Byte → State → State × Reply} {w : State} {st : Status}
    {data : List Byte} (hw : w.cab = s.cab) (hn : s.mgmt.noticePending = false → w.mgmt.noticePending = false)
    (hd : d frame { s with cab := { s.cab with requests := rest } } =
      ({ w with cab := { w.cab with requests := rest } }, { status := st, data := data })) :
    CabStarts (answeredWith p frame rest st.code data w) (serve req p d s) :=
  (serve_answers h hw hd).starts hn

/-! ### What a decision does with the request already taken -/

/-- An abort leaves the Cab Port. -/
theorem abortedIfRunning_cab (c : LastCause) (s : State) : (abortedIfRunning c s).cab = s.cab := by rw [← abortCycle_eq]; simp

/-- A move of the crane state leaves the Cab Port. -/
theorem craneMoved_cab (d : CraneState) (s : State) : (craneMoved d s).cab = s.cab := by rw [← moveCrane_eq]; simp

/-- Sending an ACTIVE crane to READY leaves the Cab Port. -/
theorem activeSentToReady_cab (s : State) : (activeSentToReady s).cab = s.cab := by rw [← activeToReady_eq]; simp

/-- A request of a valve frame leaves the Cab Port. -/
theorem valveRequested_cab (s : State) : (valveRequested s).cab = s.cab := by rw [← requestValve_eq]; simp

/-- An abort reads nothing of the request FIFO. -/
theorem abortedIfRunning_requests (c : LastCause) (s : State) (r : List (List Byte)) :
    abortedIfRunning c { s with cab := { s.cab with requests := r } } =
      { abortedIfRunning c s with cab := { (abortedIfRunning c s).cab with requests := r } } := by
  rw [abortedIfRunning_cab]
  unfold abortedIfRunning cycleAborted raise
  simp only
  split <;> rfl

/-- A move of the crane state reads nothing of the request FIFO. -/
theorem craneMoved_requests (d : CraneState) (s : State) (r : List (List Byte)) : craneMoved d { s with cab := { s.cab with requests := r } } =
      { craneMoved d s with cab := { (craneMoved d s).cab with requests := r } } := by
  rw [craneMoved_cab]
  unfold craneMoved abortedIfRunning cycleAborted raise
  simp only
  split
  · split <;> rfl
  · rfl

/-- Sending an ACTIVE crane to READY reads nothing of the request FIFO. -/
theorem activeSentToReady_requests (s : State) (r : List (List Byte)) : activeSentToReady { s with cab := { s.cab with requests := r } } =
      { activeSentToReady s with cab := { (activeSentToReady s).cab with requests := r } } := by
  unfold activeSentToReady
  split
  · exact craneMoved_requests _ _ _
  · rfl

/-- A request of a valve frame reads nothing of the request FIFO. -/
theorem valveRequested_requests (s : State) (r : List (List Byte)) : valveRequested { s with cab := { s.cab with requests := r } } =
      { valveRequested s with cab := { (valveRequested s).cab with requests := r } } := by
  rw [valveRequested_cab]
  unfold valveRequested
  simp only
  split <;> rfl

end Sys2Proof.Machine
end

