-- ==== Sys2Proof/Laws/Frames.lean ====
section
/-! SUPPORT. What each operation and each request's decision leaves as it was: one lemma for each field that it does not
write. -/

namespace Sys2Proof.Machine

/-! ### Raising a flag on a condition -/

@[simp] theorem raiseIf_power (b : Bool) (f : NoticeFlag) (s : State) :
    (raiseIf b f s).power = s.power := by
  cases b <;> rfl

@[simp] theorem raiseIf_pins (b : Bool) (f : NoticeFlag) (s : State) :
    (raiseIf b f s).pins = s.pins := by
  cases b <;> rfl

@[simp] theorem raiseIf_cab (b : Bool) (f : NoticeFlag) (s : State) :
    (raiseIf b f s).cab = s.cab := by
  cases b <;> rfl

@[simp] theorem raiseIf_crane (b : Bool) (f : NoticeFlag) (s : State) :
    (raiseIf b f s).crane = s.crane := by
  cases b <;> rfl

@[simp] theorem raiseIf_scan (b : Bool) (f : NoticeFlag) (s : State) :
    (raiseIf b f s).scan = s.scan := by
  cases b <;> rfl

@[simp] theorem raiseIf_lau (b : Bool) (f : NoticeFlag) (s : State) :
    (raiseIf b f s).lau = s.lau := by
  cases b <;> rfl

@[simp] theorem raiseIf_limiter (b : Bool) (f : NoticeFlag) (s : State) :
    (raiseIf b f s).limiter = s.limiter := by
  cases b <;> rfl

@[simp] theorem raiseIf_demand (b : Bool) (f : NoticeFlag) (s : State) :
    (raiseIf b f s).demand = s.demand := by
  cases b <;> rfl

@[simp] theorem raiseIf_shaper (b : Bool) (f : NoticeFlag) (s : State) :
    (raiseIf b f s).shaper = s.shaper := by
  cases b <;> rfl

@[simp] theorem raiseIf_valve (b : Bool) (f : NoticeFlag) (s : State) :
    (raiseIf b f s).valve = s.valve := by
  cases b <;> rfl

@[simp] theorem raiseIf_weigh (b : Bool) (f : NoticeFlag) (s : State) :
    (raiseIf b f s).weigh = s.weigh := by
  cases b <;> rfl

@[simp] theorem raiseIf_records (b : Bool) (f : NoticeFlag) (s : State) :
    (raiseIf b f s).records = s.records := by
  cases b <;> rfl

@[simp] theorem raiseIf_tables (b : Bool) (f : NoticeFlag) (s : State) :
    (raiseIf b f s).tables = s.tables := by
  cases b <;> rfl

@[simp] theorem raiseIf_pending (b : Bool) (f : NoticeFlag) (s : State) :
    (raiseIf b f s).pending = s.pending := by
  cases b <;> rfl

@[simp] theorem raiseIf_freeCount (b : Bool) (f : NoticeFlag) (s : State) :
    (raiseIf b f s).freeCount = s.freeCount := by
  cases b <;> rfl

/-! ### Raising a flag, if any -/

@[simp] theorem raiseAny_power (f : Option NoticeFlag) (s : State) :
    (raiseAny f s).power = s.power := by
  cases f <;> rfl

@[simp] theorem raiseAny_pins (f : Option NoticeFlag) (s : State) :
    (raiseAny f s).pins = s.pins := by
  cases f <;> rfl

@[simp] theorem raiseAny_cab (f : Option NoticeFlag) (s : State) :
    (raiseAny f s).cab = s.cab := by
  cases f <;> rfl

@[simp] theorem raiseAny_crane (f : Option NoticeFlag) (s : State) :
    (raiseAny f s).crane = s.crane := by
  cases f <;> rfl

@[simp] theorem raiseAny_scan (f : Option NoticeFlag) (s : State) :
    (raiseAny f s).scan = s.scan := by
  cases f <;> rfl

@[simp] theorem raiseAny_lau (f : Option NoticeFlag) (s : State) :
    (raiseAny f s).lau = s.lau := by
  cases f <;> rfl

@[simp] theorem raiseAny_limiter (f : Option NoticeFlag) (s : State) :
    (raiseAny f s).limiter = s.limiter := by
  cases f <;> rfl

@[simp] theorem raiseAny_demand (f : Option NoticeFlag) (s : State) :
    (raiseAny f s).demand = s.demand := by
  cases f <;> rfl

@[simp] theorem raiseAny_shaper (f : Option NoticeFlag) (s : State) :
    (raiseAny f s).shaper = s.shaper := by
  cases f <;> rfl

@[simp] theorem raiseAny_valve (f : Option NoticeFlag) (s : State) :
    (raiseAny f s).valve = s.valve := by
  cases f <;> rfl

@[simp] theorem raiseAny_weigh (f : Option NoticeFlag) (s : State) :
    (raiseAny f s).weigh = s.weigh := by
  cases f <;> rfl

@[simp] theorem raiseAny_records (f : Option NoticeFlag) (s : State) :
    (raiseAny f s).records = s.records := by
  cases f <;> rfl

@[simp] theorem raiseAny_tables (f : Option NoticeFlag) (s : State) :
    (raiseAny f s).tables = s.tables := by
  cases f <;> rfl

@[simp] theorem raiseAny_pending (f : Option NoticeFlag) (s : State) :
    (raiseAny f s).pending = s.pending := by
  cases f <;> rfl

@[simp] theorem raiseAny_freeCount (f : Option NoticeFlag) (s : State) :
    (raiseAny f s).freeCount = s.freeCount := by
  cases f <;> rfl

/-! ### A record arrives -/

@[simp] theorem recordArrives_power (r : Weighed) (s : State) :
    (recordArrives r s).power = s.power := by
  simp [recordArrives]

@[simp] theorem recordArrives_pins (r : Weighed) (s : State) :
    (recordArrives r s).pins = s.pins := by
  simp [recordArrives]

@[simp] theorem recordArrives_cab (r : Weighed) (s : State) :
    (recordArrives r s).cab = s.cab := by
  simp [recordArrives]

@[simp] theorem recordArrives_crane (r : Weighed) (s : State) :
    (recordArrives r s).crane = s.crane := by
  simp [recordArrives]

@[simp] theorem recordArrives_scan (r : Weighed) (s : State) :
    (recordArrives r s).scan = s.scan := by
  simp [recordArrives]

@[simp] theorem recordArrives_lau (r : Weighed) (s : State) :
    (recordArrives r s).lau = s.lau := by
  simp [recordArrives]

@[simp] theorem recordArrives_limiter (r : Weighed) (s : State) :
    (recordArrives r s).limiter = s.limiter := by
  simp [recordArrives]

@[simp] theorem recordArrives_demand (r : Weighed) (s : State) :
    (recordArrives r s).demand = s.demand := by
  simp [recordArrives]

@[simp] theorem recordArrives_shaper (r : Weighed) (s : State) :
    (recordArrives r s).shaper = s.shaper := by
  simp [recordArrives]

@[simp] theorem recordArrives_valve (r : Weighed) (s : State) :
    (recordArrives r s).valve = s.valve := by
  simp [recordArrives]

@[simp] theorem recordArrives_weigh (r : Weighed) (s : State) :
    (recordArrives r s).weigh = s.weigh := by
  simp [recordArrives]

@[simp] theorem recordArrives_tables (r : Weighed) (s : State) :
    (recordArrives r s).tables = s.tables := by
  simp [recordArrives]

@[simp] theorem recordArrives_pending (r : Weighed) (s : State) :
    (recordArrives r s).pending = s.pending := by
  simp [recordArrives]

@[simp] theorem recordArrives_freeCount (r : Weighed) (s : State) :
    (recordArrives r s).freeCount = s.freeCount := by
  simp [recordArrives]

/-! ### The Limiter takes a result -/

@[simp] theorem limiterTakes_power (rct : Option Image) (r : LoadResult) (s : State) :
    (limiterTakes rct r s).power = s.power := by
  simp [limiterTakes]

@[simp] theorem limiterTakes_pins (rct : Option Image) (r : LoadResult) (s : State) :
    (limiterTakes rct r s).pins = s.pins := by
  simp [limiterTakes]

@[simp] theorem limiterTakes_cab (rct : Option Image) (r : LoadResult) (s : State) :
    (limiterTakes rct r s).cab = s.cab := by
  simp [limiterTakes]

@[simp] theorem limiterTakes_crane (rct : Option Image) (r : LoadResult) (s : State) :
    (limiterTakes rct r s).crane = s.crane := by
  simp [limiterTakes]

@[simp] theorem limiterTakes_scan (rct : Option Image) (r : LoadResult) (s : State) :
    (limiterTakes rct r s).scan = s.scan := by
  simp [limiterTakes]

@[simp] theorem limiterTakes_lau (rct : Option Image) (r : LoadResult) (s : State) :
    (limiterTakes rct r s).lau = s.lau := by
  simp [limiterTakes]

@[simp] theorem limiterTakes_demand (rct : Option Image) (r : LoadResult) (s : State) :
    (limiterTakes rct r s).demand = s.demand := by
  simp [limiterTakes]

@[simp] theorem limiterTakes_shaper (rct : Option Image) (r : LoadResult) (s : State) :
    (limiterTakes rct r s).shaper = s.shaper := by
  simp [limiterTakes]

@[simp] theorem limiterTakes_valve (rct : Option Image) (r : LoadResult) (s : State) :
    (limiterTakes rct r s).valve = s.valve := by
  simp [limiterTakes]

@[simp] theorem limiterTakes_weigh (rct : Option Image) (r : LoadResult) (s : State) :
    (limiterTakes rct r s).weigh = s.weigh := by
  simp [limiterTakes]

@[simp] theorem limiterTakes_records (rct : Option Image) (r : LoadResult) (s : State) :
    (limiterTakes rct r s).records = s.records := by
  simp [limiterTakes]

@[simp] theorem limiterTakes_tables (rct : Option Image) (r : LoadResult) (s : State) :
    (limiterTakes rct r s).tables = s.tables := by
  simp [limiterTakes]

@[simp] theorem limiterTakes_pending (rct : Option Image) (r : LoadResult) (s : State) :
    (limiterTakes rct r s).pending = s.pending := by
  simp [limiterTakes]

@[simp] theorem limiterTakes_freeCount (rct : Option Image) (r : LoadResult) (s : State) :
    (limiterTakes rct r s).freeCount = s.freeCount := by
  simp [limiterTakes]

/-! ### What the Weigh Unit hands out -/

@[simp] theorem weighHandsOut_power (e : WeighEvent) (s : State) :
    (weighHandsOut e s).power = s.power := by
  cases e <;> simp [weighHandsOut]

@[simp] theorem weighHandsOut_pins (e : WeighEvent) (s : State) :
    (weighHandsOut e s).pins = s.pins := by
  cases e <;> simp [weighHandsOut]

@[simp] theorem weighHandsOut_cab (e : WeighEvent) (s : State) :
    (weighHandsOut e s).cab = s.cab := by
  cases e <;> simp [weighHandsOut]

@[simp] theorem weighHandsOut_crane (e : WeighEvent) (s : State) :
    (weighHandsOut e s).crane = s.crane := by
  cases e <;> simp [weighHandsOut]

@[simp] theorem weighHandsOut_scan (e : WeighEvent) (s : State) :
    (weighHandsOut e s).scan = s.scan := by
  cases e <;> simp [weighHandsOut]

@[simp] theorem weighHandsOut_lau (e : WeighEvent) (s : State) :
    (weighHandsOut e s).lau = s.lau := by
  cases e <;> simp [weighHandsOut]

@[simp] theorem weighHandsOut_limiter (e : WeighEvent) (s : State) :
    (weighHandsOut e s).limiter = s.limiter := by
  cases e <;> simp [weighHandsOut]

@[simp] theorem weighHandsOut_demand (e : WeighEvent) (s : State) :
    (weighHandsOut e s).demand = s.demand := by
  cases e <;> simp [weighHandsOut]

@[simp] theorem weighHandsOut_shaper (e : WeighEvent) (s : State) :
    (weighHandsOut e s).shaper = s.shaper := by
  cases e <;> simp [weighHandsOut]

@[simp] theorem weighHandsOut_valve (e : WeighEvent) (s : State) :
    (weighHandsOut e s).valve = s.valve := by
  cases e <;> simp [weighHandsOut]

@[simp] theorem weighHandsOut_weigh (e : WeighEvent) (s : State) :
    (weighHandsOut e s).weigh = s.weigh := by
  cases e <;> simp [weighHandsOut]

@[simp] theorem weighHandsOut_tables (e : WeighEvent) (s : State) :
    (weighHandsOut e s).tables = s.tables := by
  cases e <;> simp [weighHandsOut]

@[simp] theorem weighHandsOut_pending (e : WeighEvent) (s : State) :
    (weighHandsOut e s).pending = s.pending := by
  cases e <;> simp [weighHandsOut]

@[simp] theorem weighHandsOut_freeCount (e : WeighEvent) (s : State) :
    (weighHandsOut e s).freeCount = s.freeCount := by
  cases e <;> simp [weighHandsOut]

/-! ### A piece of work of the Weigh Unit -/

@[simp] theorem weighWorks_power (r : WeighUnit × WeighEvent) (s : State) :
    (weighWorks r s).power = s.power := by
  simp [weighWorks]

@[simp] theorem weighWorks_pins (r : WeighUnit × WeighEvent) (s : State) :
    (weighWorks r s).pins = s.pins := by
  simp [weighWorks]

@[simp] theorem weighWorks_cab (r : WeighUnit × WeighEvent) (s : State) :
    (weighWorks r s).cab = s.cab := by
  simp [weighWorks]

@[simp] theorem weighWorks_crane (r : WeighUnit × WeighEvent) (s : State) :
    (weighWorks r s).crane = s.crane := by
  simp [weighWorks]

@[simp] theorem weighWorks_scan (r : WeighUnit × WeighEvent) (s : State) :
    (weighWorks r s).scan = s.scan := by
  simp [weighWorks]

@[simp] theorem weighWorks_lau (r : WeighUnit × WeighEvent) (s : State) :
    (weighWorks r s).lau = s.lau := by
  simp [weighWorks]

@[simp] theorem weighWorks_limiter (r : WeighUnit × WeighEvent) (s : State) :
    (weighWorks r s).limiter = s.limiter := by
  simp [weighWorks]

@[simp] theorem weighWorks_demand (r : WeighUnit × WeighEvent) (s : State) :
    (weighWorks r s).demand = s.demand := by
  simp [weighWorks]

@[simp] theorem weighWorks_shaper (r : WeighUnit × WeighEvent) (s : State) :
    (weighWorks r s).shaper = s.shaper := by
  simp [weighWorks]

@[simp] theorem weighWorks_valve (r : WeighUnit × WeighEvent) (s : State) :
    (weighWorks r s).valve = s.valve := by
  simp [weighWorks]

@[simp] theorem weighWorks_tables (r : WeighUnit × WeighEvent) (s : State) :
    (weighWorks r s).tables = s.tables := by
  simp [weighWorks]

@[simp] theorem weighWorks_pending (r : WeighUnit × WeighEvent) (s : State) :
    (weighWorks r s).pending = s.pending := by
  simp [weighWorks]

@[simp] theorem weighWorks_freeCount (r : WeighUnit × WeighEvent) (s : State) :
    (weighWorks r s).freeCount = s.freeCount := by
  simp [weighWorks]

@[simp] theorem weighWorks_weigh (r : WeighUnit × WeighEvent) (s : State) : (weighWorks r s).weigh = r.1 := by
  unfold weighWorks weighHandsOut
  split <;> simp

/-! ### The Weigh Unit takes a result -/

@[simp] theorem weighTakes_power (r : LoadResult) (s : State) :
    (weighTakes r s).power = s.power := by
  simp [weighTakes]

@[simp] theorem weighTakes_pins (r : LoadResult) (s : State) :
    (weighTakes r s).pins = s.pins := by
  simp [weighTakes]

@[simp] theorem weighTakes_cab (r : LoadResult) (s : State) :
    (weighTakes r s).cab = s.cab := by
  simp [weighTakes]

@[simp] theorem weighTakes_crane (r : LoadResult) (s : State) :
    (weighTakes r s).crane = s.crane := by
  simp [weighTakes]

@[simp] theorem weighTakes_scan (r : LoadResult) (s : State) :
    (weighTakes r s).scan = s.scan := by
  simp [weighTakes]

@[simp] theorem weighTakes_lau (r : LoadResult) (s : State) :
    (weighTakes r s).lau = s.lau := by
  simp [weighTakes]

@[simp] theorem weighTakes_limiter (r : LoadResult) (s : State) :
    (weighTakes r s).limiter = s.limiter := by
  simp [weighTakes]

@[simp] theorem weighTakes_demand (r : LoadResult) (s : State) :
    (weighTakes r s).demand = s.demand := by
  simp [weighTakes]

@[simp] theorem weighTakes_shaper (r : LoadResult) (s : State) :
    (weighTakes r s).shaper = s.shaper := by
  simp [weighTakes]

@[simp] theorem weighTakes_valve (r : LoadResult) (s : State) :
    (weighTakes r s).valve = s.valve := by
  simp [weighTakes]

@[simp] theorem weighTakes_tables (r : LoadResult) (s : State) :
    (weighTakes r s).tables = s.tables := by
  simp [weighTakes]

@[simp] theorem weighTakes_pending (r : LoadResult) (s : State) :
    (weighTakes r s).pending = s.pending := by
  simp [weighTakes]

@[simp] theorem weighTakes_freeCount (r : LoadResult) (s : State) :
    (weighTakes r s).freeCount = s.freeCount := by
  simp [weighTakes]

/-! ### The LAU takes a scan record -/

@[simp] theorem lauTakes_power (r : ScanRecord) (s : State) :
    (lauTakes r s).power = s.power := by
  simp [lauTakes]

@[simp] theorem lauTakes_pins (r : ScanRecord) (s : State) :
    (lauTakes r s).pins = s.pins := by
  simp [lauTakes]

@[simp] theorem lauTakes_cab (r : ScanRecord) (s : State) :
    (lauTakes r s).cab = s.cab := by
  simp [lauTakes]

@[simp] theorem lauTakes_crane (r : ScanRecord) (s : State) :
    (lauTakes r s).crane = s.crane := by
  simp [lauTakes]

@[simp] theorem lauTakes_scan (r : ScanRecord) (s : State) :
    (lauTakes r s).scan = s.scan := by
  simp [lauTakes]

@[simp] theorem lauTakes_demand (r : ScanRecord) (s : State) :
    (lauTakes r s).demand = s.demand := by
  simp [lauTakes]

@[simp] theorem lauTakes_shaper (r : ScanRecord) (s : State) :
    (lauTakes r s).shaper = s.shaper := by
  simp [lauTakes]

@[simp] theorem lauTakes_valve (r : ScanRecord) (s : State) :
    (lauTakes r s).valve = s.valve := by
  simp [lauTakes]

@[simp] theorem lauTakes_tables (r : ScanRecord) (s : State) :
    (lauTakes r s).tables = s.tables := by
  simp [lauTakes]

@[simp] theorem lauTakes_pending (r : ScanRecord) (s : State) :
    (lauTakes r s).pending = s.pending := by
  simp [lauTakes]

@[simp] theorem lauTakes_freeCount (r : ScanRecord) (s : State) :
    (lauTakes r s).freeCount = s.freeCount := by
  simp [lauTakes]

/-! ### A scan completes -/

@[simp] theorem completeScan_power (x : FixedTables) (n : Six (BitVec 12)) (s : State) :
    (completeScan x n s).power = s.power := by
  simp [completeScan]

@[simp] theorem completeScan_pins (x : FixedTables) (n : Six (BitVec 12)) (s : State) :
    (completeScan x n s).pins = s.pins := by
  simp [completeScan]

@[simp] theorem completeScan_cab (x : FixedTables) (n : Six (BitVec 12)) (s : State) :
    (completeScan x n s).cab = s.cab := by
  simp [completeScan]

@[simp] theorem completeScan_crane (x : FixedTables) (n : Six (BitVec 12)) (s : State) :
    (completeScan x n s).crane = s.crane := by
  simp [completeScan]

@[simp] theorem completeScan_demand (x : FixedTables) (n : Six (BitVec 12)) (s : State) :
    (completeScan x n s).demand = s.demand := by
  simp [completeScan]

@[simp] theorem completeScan_shaper (x : FixedTables) (n : Six (BitVec 12)) (s : State) :
    (completeScan x n s).shaper = s.shaper := by
  simp [completeScan]

@[simp] theorem completeScan_valve (x : FixedTables) (n : Six (BitVec 12)) (s : State) :
    (completeScan x n s).valve = s.valve := by
  simp [completeScan]

@[simp] theorem completeScan_tables (x : FixedTables) (n : Six (BitVec 12)) (s : State) :
    (completeScan x n s).tables = s.tables := by
  simp [completeScan]

@[simp] theorem completeScan_pending (x : FixedTables) (n : Six (BitVec 12)) (s : State) :
    (completeScan x n s).pending = s.pending := by
  simp [completeScan]

@[simp] theorem completeScan_freeCount (x : FixedTables) (n : Six (BitVec 12)) (s : State) :
    (completeScan x n s).freeCount = s.freeCount := by
  simp [completeScan]

/-! ### A rising edge of WEIGH -/

@[simp] theorem weighEdge_power (s : State) :
    (weighEdge s).power = s.power := by
  unfold weighEdge; (repeat' split) <;> rfl

@[simp] theorem weighEdge_pins (s : State) :
    (weighEdge s).pins = s.pins := by
  unfold weighEdge; (repeat' split) <;> rfl

@[simp] theorem weighEdge_cab (s : State) :
    (weighEdge s).cab = s.cab := by
  unfold weighEdge; (repeat' split) <;> rfl

@[simp] theorem weighEdge_crane (s : State) :
    (weighEdge s).crane = s.crane := by
  unfold weighEdge; (repeat' split) <;> rfl

@[simp] theorem weighEdge_scan (s : State) :
    (weighEdge s).scan = s.scan := by
  unfold weighEdge; (repeat' split) <;> rfl

@[simp] theorem weighEdge_lau (s : State) :
    (weighEdge s).lau = s.lau := by
  unfold weighEdge; (repeat' split) <;> rfl

@[simp] theorem weighEdge_limiter (s : State) :
    (weighEdge s).limiter = s.limiter := by
  unfold weighEdge; (repeat' split) <;> rfl

@[simp] theorem weighEdge_demand (s : State) :
    (weighEdge s).demand = s.demand := by
  unfold weighEdge; (repeat' split) <;> rfl

@[simp] theorem weighEdge_shaper (s : State) :
    (weighEdge s).shaper = s.shaper := by
  unfold weighEdge; (repeat' split) <;> rfl

@[simp] theorem weighEdge_valve (s : State) :
    (weighEdge s).valve = s.valve := by
  unfold weighEdge; (repeat' split) <;> rfl

@[simp] theorem weighEdge_records (s : State) :
    (weighEdge s).records = s.records := by
  unfold weighEdge; (repeat' split) <;> rfl

@[simp] theorem weighEdge_tables (s : State) :
    (weighEdge s).tables = s.tables := by
  unfold weighEdge; (repeat' split) <;> rfl

@[simp] theorem weighEdge_mgmt (s : State) :
    (weighEdge s).mgmt = s.mgmt := by
  unfold weighEdge; (repeat' split) <;> rfl

@[simp] theorem weighEdge_pending (s : State) :
    (weighEdge s).pending = s.pending := by
  unfold weighEdge; (repeat' split) <;> rfl

@[simp] theorem weighEdge_freeCount (s : State) :
    (weighEdge s).freeCount = s.freeCount := by
  unfold weighEdge; (repeat' split) <;> rfl

/-! ### What an owner frame writes -/

@[simp] theorem ownerFrameWrites_power (src : DemandSource) (d : List Byte) (s : State) :
    (ownerFrameWrites src d s).power = s.power := by
  rfl

@[simp] theorem ownerFrameWrites_pins (src : DemandSource) (d : List Byte) (s : State) :
    (ownerFrameWrites src d s).pins = s.pins := by
  rfl

@[simp] theorem ownerFrameWrites_cab (src : DemandSource) (d : List Byte) (s : State) :
    (ownerFrameWrites src d s).cab = s.cab := by
  rfl

@[simp] theorem ownerFrameWrites_crane (src : DemandSource) (d : List Byte) (s : State) :
    (ownerFrameWrites src d s).crane = s.crane := by
  rfl

@[simp] theorem ownerFrameWrites_scan (src : DemandSource) (d : List Byte) (s : State) :
    (ownerFrameWrites src d s).scan = s.scan := by
  rfl

@[simp] theorem ownerFrameWrites_lau (src : DemandSource) (d : List Byte) (s : State) :
    (ownerFrameWrites src d s).lau = s.lau := by
  rfl

@[simp] theorem ownerFrameWrites_limiter (src : DemandSource) (d : List Byte) (s : State) :
    (ownerFrameWrites src d s).limiter = s.limiter := by
  rfl

@[simp] theorem ownerFrameWrites_shaper (src : DemandSource) (d : List Byte) (s : State) :
    (ownerFrameWrites src d s).shaper = s.shaper := by
  rfl

@[simp] theorem ownerFrameWrites_valve (src : DemandSource) (d : List Byte) (s : State) :
    (ownerFrameWrites src d s).valve = s.valve := by
  rfl

@[simp] theorem ownerFrameWrites_weigh (src : DemandSource) (d : List Byte) (s : State) :
    (ownerFrameWrites src d s).weigh = s.weigh := by
  rfl

@[simp] theorem ownerFrameWrites_records (src : DemandSource) (d : List Byte) (s : State) :
    (ownerFrameWrites src d s).records = s.records := by
  rfl

@[simp] theorem ownerFrameWrites_tables (src : DemandSource) (d : List Byte) (s : State) :
    (ownerFrameWrites src d s).tables = s.tables := by
  rfl

@[simp] theorem ownerFrameWrites_mgmt (src : DemandSource) (d : List Byte) (s : State) :
    (ownerFrameWrites src d s).mgmt = s.mgmt := by
  rfl

@[simp] theorem ownerFrameWrites_pending (src : DemandSource) (d : List Byte) (s : State) :
    (ownerFrameWrites src d s).pending = s.pending := by
  rfl

@[simp] theorem ownerFrameWrites_freeCount (src : DemandSource) (d : List Byte) (s : State) :
    (ownerFrameWrites src d s).freeCount = s.freeCount := by
  rfl

/-! ### An owner frame -/

@[simp] theorem ownerFrame_power (src : DemandSource) (d : List Byte) (s : State) :
    (ownerFrame src d s).power = s.power := by
  unfold ownerFrame; simp only; (repeat' split) <;> simp

@[simp] theorem ownerFrame_pins (src : DemandSource) (d : List Byte) (s : State) :
    (ownerFrame src d s).pins = s.pins := by
  unfold ownerFrame; simp only; (repeat' split) <;> simp

@[simp] theorem ownerFrame_cab (src : DemandSource) (d : List Byte) (s : State) :
    (ownerFrame src d s).cab = s.cab := by
  unfold ownerFrame; simp only; (repeat' split) <;> simp

@[simp] theorem ownerFrame_crane (src : DemandSource) (d : List Byte) (s : State) :
    (ownerFrame src d s).crane = s.crane := by
  unfold ownerFrame; simp only; (repeat' split) <;> simp

@[simp] theorem ownerFrame_scan (src : DemandSource) (d : List Byte) (s : State) :
    (ownerFrame src d s).scan = s.scan := by
  unfold ownerFrame; simp only; (repeat' split) <;> simp

@[simp] theorem ownerFrame_lau (src : DemandSource) (d : List Byte) (s : State) :
    (ownerFrame src d s).lau = s.lau := by
  unfold ownerFrame; simp only; (repeat' split) <;> simp

@[simp] theorem ownerFrame_limiter (src : DemandSource) (d : List Byte) (s : State) :
    (ownerFrame src d s).limiter = s.limiter := by
  unfold ownerFrame; simp only; (repeat' split) <;> simp

@[simp] theorem ownerFrame_shaper (src : DemandSource) (d : List Byte) (s : State) :
    (ownerFrame src d s).shaper = s.shaper := by
  unfold ownerFrame; simp only; (repeat' split) <;> simp

@[simp] theorem ownerFrame_valve (src : DemandSource) (d : List Byte) (s : State) :
    (ownerFrame src d s).valve = s.valve := by
  unfold ownerFrame; simp only; (repeat' split) <;> simp

@[simp] theorem ownerFrame_records (src : DemandSource) (d : List Byte) (s : State) :
    (ownerFrame src d s).records = s.records := by
  unfold ownerFrame; simp only; (repeat' split) <;> simp

@[simp] theorem ownerFrame_tables (src : DemandSource) (d : List Byte) (s : State) :
    (ownerFrame src d s).tables = s.tables := by
  unfold ownerFrame; simp only; (repeat' split) <;> simp

@[simp] theorem ownerFrame_mgmt (src : DemandSource) (d : List Byte) (s : State) :
    (ownerFrame src d s).mgmt = s.mgmt := by
  unfold ownerFrame; simp only; (repeat' split) <;> simp

@[simp] theorem ownerFrame_pending (src : DemandSource) (d : List Byte) (s : State) :
    (ownerFrame src d s).pending = s.pending := by
  unfold ownerFrame; simp only; (repeat' split) <;> simp

@[simp] theorem ownerFrame_freeCount (src : DemandSource) (d : List Byte) (s : State) :
    (ownerFrame src d s).freeCount = s.freeCount := by
  unfold ownerFrame; simp only; (repeat' split) <;> simp

/-! ### A granted take -/

@[simp] theorem grantTake_power (src : DemandSource) (d : List Byte) (s : State) :
    (grantTake src d s).power = s.power := by
  simp [grantTake]

@[simp] theorem grantTake_pins (src : DemandSource) (d : List Byte) (s : State) :
    (grantTake src d s).pins = s.pins := by
  simp [grantTake]

@[simp] theorem grantTake_cab (src : DemandSource) (d : List Byte) (s : State) :
    (grantTake src d s).cab = s.cab := by
  simp [grantTake]

@[simp] theorem grantTake_crane (src : DemandSource) (d : List Byte) (s : State) :
    (grantTake src d s).crane = s.crane := by
  simp [grantTake]

@[simp] theorem grantTake_scan (src : DemandSource) (d : List Byte) (s : State) :
    (grantTake src d s).scan = s.scan := by
  simp [grantTake]

@[simp] theorem grantTake_lau (src : DemandSource) (d : List Byte) (s : State) :
    (grantTake src d s).lau = s.lau := by
  simp [grantTake]

@[simp] theorem grantTake_limiter (src : DemandSource) (d : List Byte) (s : State) :
    (grantTake src d s).limiter = s.limiter := by
  simp [grantTake]

@[simp] theorem grantTake_shaper (src : DemandSource) (d : List Byte) (s : State) :
    (grantTake src d s).shaper = s.shaper := by
  simp [grantTake]

@[simp] theorem grantTake_valve (src : DemandSource) (d : List Byte) (s : State) :
    (grantTake src d s).valve = s.valve := by
  simp [grantTake]

@[simp] theorem grantTake_records (src : DemandSource) (d : List Byte) (s : State) :
    (grantTake src d s).records = s.records := by
  simp [grantTake]

@[simp] theorem grantTake_tables (src : DemandSource) (d : List Byte) (s : State) :
    (grantTake src d s).tables = s.tables := by
  simp [grantTake]

@[simp] theorem grantTake_pending (src : DemandSource) (d : List Byte) (s : State) :
    (grantTake src d s).pending = s.pending := by
  simp [grantTake]

@[simp] theorem grantTake_freeCount (src : DemandSource) (d : List Byte) (s : State) :
    (grantTake src d s).freeCount = s.freeCount := by
  simp [grantTake]

/-! ### An accepted demand frame -/

@[simp] theorem takeDemandFrame_power (src : DemandSource) (d : List Byte) (s : State) :
    (takeDemandFrame src d s).power = s.power := by
  unfold takeDemandFrame; (repeat' split) <;> simp

@[simp] theorem takeDemandFrame_pins (src : DemandSource) (d : List Byte) (s : State) :
    (takeDemandFrame src d s).pins = s.pins := by
  unfold takeDemandFrame; (repeat' split) <;> simp

@[simp] theorem takeDemandFrame_cab (src : DemandSource) (d : List Byte) (s : State) :
    (takeDemandFrame src d s).cab = s.cab := by
  unfold takeDemandFrame; (repeat' split) <;> simp

@[simp] theorem takeDemandFrame_crane (src : DemandSource) (d : List Byte) (s : State) :
    (takeDemandFrame src d s).crane = s.crane := by
  unfold takeDemandFrame; (repeat' split) <;> simp

@[simp] theorem takeDemandFrame_scan (src : DemandSource) (d : List Byte) (s : State) :
    (takeDemandFrame src d s).scan = s.scan := by
  unfold takeDemandFrame; (repeat' split) <;> simp

@[simp] theorem takeDemandFrame_lau (src : DemandSource) (d : List Byte) (s : State) :
    (takeDemandFrame src d s).lau = s.lau := by
  unfold takeDemandFrame; (repeat' split) <;> simp

@[simp] theorem takeDemandFrame_limiter (src : DemandSource) (d : List Byte) (s : State) :
    (takeDemandFrame src d s).limiter = s.limiter := by
  unfold takeDemandFrame; (repeat' split) <;> simp

@[simp] theorem takeDemandFrame_shaper (src : DemandSource) (d : List Byte) (s : State) :
    (takeDemandFrame src d s).shaper = s.shaper := by
  unfold takeDemandFrame; (repeat' split) <;> simp

@[simp] theorem takeDemandFrame_valve (src : DemandSource) (d : List Byte) (s : State) :
    (takeDemandFrame src d s).valve = s.valve := by
  unfold takeDemandFrame; (repeat' split) <;> simp

@[simp] theorem takeDemandFrame_records (src : DemandSource) (d : List Byte) (s : State) :
    (takeDemandFrame src d s).records = s.records := by
  unfold takeDemandFrame; (repeat' split) <;> simp

@[simp] theorem takeDemandFrame_tables (src : DemandSource) (d : List Byte) (s : State) :
    (takeDemandFrame src d s).tables = s.tables := by
  unfold takeDemandFrame; (repeat' split) <;> simp

@[simp] theorem takeDemandFrame_pending (src : DemandSource) (d : List Byte) (s : State) :
    (takeDemandFrame src d s).pending = s.pending := by
  unfold takeDemandFrame; (repeat' split) <;> simp

@[simp] theorem takeDemandFrame_freeCount (src : DemandSource) (d : List Byte) (s : State) :
    (takeDemandFrame src d s).freeCount = s.freeCount := by
  unfold takeDemandFrame; (repeat' split) <;> simp

/-! ### Presence zeroing -/

@[simp] theorem presenceZeroing_power (s : State) :
    (presenceZeroing s).power = s.power := by
  simp [presenceZeroing]

@[simp] theorem presenceZeroing_pins (s : State) :
    (presenceZeroing s).pins = s.pins := by
  simp [presenceZeroing]

@[simp] theorem presenceZeroing_cab (s : State) :
    (presenceZeroing s).cab = s.cab := by
  simp [presenceZeroing]

@[simp] theorem presenceZeroing_scan (s : State) :
    (presenceZeroing s).scan = s.scan := by
  simp [presenceZeroing]

@[simp] theorem presenceZeroing_lau (s : State) :
    (presenceZeroing s).lau = s.lau := by
  simp [presenceZeroing]

@[simp] theorem presenceZeroing_limiter (s : State) :
    (presenceZeroing s).limiter = s.limiter := by
  simp [presenceZeroing]

@[simp] theorem presenceZeroing_demand (s : State) :
    (presenceZeroing s).demand = s.demand := by
  simp [presenceZeroing]

@[simp] theorem presenceZeroing_weigh (s : State) :
    (presenceZeroing s).weigh = s.weigh := by
  simp [presenceZeroing]

@[simp] theorem presenceZeroing_records (s : State) :
    (presenceZeroing s).records = s.records := by
  simp [presenceZeroing]

@[simp] theorem presenceZeroing_tables (s : State) :
    (presenceZeroing s).tables = s.tables := by
  simp [presenceZeroing]

@[simp] theorem presenceZeroing_mgmt (s : State) :
    (presenceZeroing s).mgmt = s.mgmt := by
  simp [presenceZeroing]

@[simp] theorem presenceZeroing_pending (s : State) :
    (presenceZeroing s).pending = s.pending := by
  simp [presenceZeroing]

@[simp] theorem presenceZeroing_freeCount (s : State) :
    (presenceZeroing s).freeCount = s.freeCount := by
  simp [presenceZeroing]

/-! ### The acceptance of an FMT -/

@[simp] theorem fmtAccepted_power (s : State) :
    (fmtAccepted s).power = s.power := by
  simp [fmtAccepted]

@[simp] theorem fmtAccepted_pins (s : State) :
    (fmtAccepted s).pins = s.pins := by
  simp [fmtAccepted]

@[simp] theorem fmtAccepted_cab (s : State) :
    (fmtAccepted s).cab = s.cab := by
  simp [fmtAccepted]

@[simp] theorem fmtAccepted_scan (s : State) :
    (fmtAccepted s).scan = s.scan := by
  simp [fmtAccepted]

@[simp] theorem fmtAccepted_lau (s : State) :
    (fmtAccepted s).lau = s.lau := by
  simp [fmtAccepted]

@[simp] theorem fmtAccepted_limiter (s : State) :
    (fmtAccepted s).limiter = s.limiter := by
  simp [fmtAccepted]

@[simp] theorem fmtAccepted_shaper (s : State) :
    (fmtAccepted s).shaper = s.shaper := by
  simp [fmtAccepted]

@[simp] theorem fmtAccepted_records (s : State) :
    (fmtAccepted s).records = s.records := by
  simp [fmtAccepted]

@[simp] theorem fmtAccepted_tables (s : State) :
    (fmtAccepted s).tables = s.tables := by
  simp [fmtAccepted]

@[simp] theorem fmtAccepted_pending (s : State) :
    (fmtAccepted s).pending = s.pending := by
  simp [fmtAccepted]

@[simp] theorem fmtAccepted_freeCount (s : State) :
    (fmtAccepted s).freeCount = s.freeCount := by
  simp [fmtAccepted]

/-! ### The acceptance of a WPT -/

@[simp] theorem wptAccepted_power (s : State) :
    (wptAccepted s).power = s.power := by
  unfold wptAccepted; split <;> simp

@[simp] theorem wptAccepted_pins (s : State) :
    (wptAccepted s).pins = s.pins := by
  unfold wptAccepted; split <;> simp

@[simp] theorem wptAccepted_cab (s : State) :
    (wptAccepted s).cab = s.cab := by
  unfold wptAccepted; split <;> simp

@[simp] theorem wptAccepted_crane (s : State) :
    (wptAccepted s).crane = s.crane := by
  unfold wptAccepted; split <;> simp

@[simp] theorem wptAccepted_scan (s : State) :
    (wptAccepted s).scan = s.scan := by
  unfold wptAccepted; split <;> simp

@[simp] theorem wptAccepted_lau (s : State) :
    (wptAccepted s).lau = s.lau := by
  unfold wptAccepted; split <;> simp

@[simp] theorem wptAccepted_limiter (s : State) :
    (wptAccepted s).limiter = s.limiter := by
  unfold wptAccepted; split <;> simp

@[simp] theorem wptAccepted_demand (s : State) :
    (wptAccepted s).demand = s.demand := by
  unfold wptAccepted; split <;> simp

@[simp] theorem wptAccepted_shaper (s : State) :
    (wptAccepted s).shaper = s.shaper := by
  unfold wptAccepted; split <;> simp

@[simp] theorem wptAccepted_valve (s : State) :
    (wptAccepted s).valve = s.valve := by
  unfold wptAccepted; split <;> simp

@[simp] theorem wptAccepted_records (s : State) :
    (wptAccepted s).records = s.records := by
  unfold wptAccepted; split <;> simp

@[simp] theorem wptAccepted_tables (s : State) :
    (wptAccepted s).tables = s.tables := by
  unfold wptAccepted; split <;> simp

@[simp] theorem wptAccepted_pending (s : State) :
    (wptAccepted s).pending = s.pending := by
  unfold wptAccepted; split <;> simp

@[simp] theorem wptAccepted_freeCount (s : State) :
    (wptAccepted s).freeCount = s.freeCount := by
  unfold wptAccepted; split <;> simp

/-! ### The acceptance of a table -/

@[simp] theorem acceptedBy_power (k : Kind) (s : State) :
    (acceptedBy k s).power = s.power := by
  cases k <;> simp [acceptedBy]

@[simp] theorem acceptedBy_pins (k : Kind) (s : State) :
    (acceptedBy k s).pins = s.pins := by
  cases k <;> simp [acceptedBy]

@[simp] theorem acceptedBy_cab (k : Kind) (s : State) :
    (acceptedBy k s).cab = s.cab := by
  cases k <;> simp [acceptedBy]

@[simp] theorem acceptedBy_scan (k : Kind) (s : State) :
    (acceptedBy k s).scan = s.scan := by
  cases k <;> simp [acceptedBy]

@[simp] theorem acceptedBy_lau (k : Kind) (s : State) :
    (acceptedBy k s).lau = s.lau := by
  cases k <;> simp [acceptedBy]

@[simp] theorem acceptedBy_limiter (k : Kind) (s : State) :
    (acceptedBy k s).limiter = s.limiter := by
  cases k <;> simp [acceptedBy]

@[simp] theorem acceptedBy_shaper (k : Kind) (s : State) :
    (acceptedBy k s).shaper = s.shaper := by
  cases k <;> simp [acceptedBy]

@[simp] theorem acceptedBy_records (k : Kind) (s : State) :
    (acceptedBy k s).records = s.records := by
  cases k <;> simp [acceptedBy]

@[simp] theorem acceptedBy_tables (k : Kind) (s : State) :
    (acceptedBy k s).tables = s.tables := by
  cases k <;> simp [acceptedBy]

@[simp] theorem acceptedBy_pending (k : Kind) (s : State) :
    (acceptedBy k s).pending = s.pending := by
  cases k <;> simp [acceptedBy]

@[simp] theorem acceptedBy_freeCount (k : Kind) (s : State) :
    (acceptedBy k s).freeCount = s.freeCount := by
  cases k <;> simp [acceptedBy]

/-! ### The Weigh Unit at a soft reset -/

@[simp] theorem weighSoftReset_power (s : State) :
    (weighSoftReset s).power = s.power := by
  unfold weighSoftReset; split <;> simp

@[simp] theorem weighSoftReset_pins (s : State) :
    (weighSoftReset s).pins = s.pins := by
  unfold weighSoftReset; split <;> simp

@[simp] theorem weighSoftReset_cab (s : State) :
    (weighSoftReset s).cab = s.cab := by
  unfold weighSoftReset; split <;> simp

@[simp] theorem weighSoftReset_crane (s : State) :
    (weighSoftReset s).crane = s.crane := by
  unfold weighSoftReset; split <;> simp

@[simp] theorem weighSoftReset_scan (s : State) :
    (weighSoftReset s).scan = s.scan := by
  unfold weighSoftReset; split <;> simp

@[simp] theorem weighSoftReset_lau (s : State) :
    (weighSoftReset s).lau = s.lau := by
  unfold weighSoftReset; split <;> simp

@[simp] theorem weighSoftReset_limiter (s : State) :
    (weighSoftReset s).limiter = s.limiter := by
  unfold weighSoftReset; split <;> simp

@[simp] theorem weighSoftReset_demand (s : State) :
    (weighSoftReset s).demand = s.demand := by
  unfold weighSoftReset; split <;> simp

@[simp] theorem weighSoftReset_shaper (s : State) :
    (weighSoftReset s).shaper = s.shaper := by
  unfold weighSoftReset; split <;> simp

@[simp] theorem weighSoftReset_valve (s : State) :
    (weighSoftReset s).valve = s.valve := by
  unfold weighSoftReset; split <;> simp

@[simp] theorem weighSoftReset_records (s : State) :
    (weighSoftReset s).records = s.records := by
  unfold weighSoftReset; split <;> simp

@[simp] theorem weighSoftReset_tables (s : State) :
    (weighSoftReset s).tables = s.tables := by
  unfold weighSoftReset; split <;> simp

@[simp] theorem weighSoftReset_pending (s : State) :
    (weighSoftReset s).pending = s.pending := by
  unfold weighSoftReset; split <;> simp

@[simp] theorem weighSoftReset_freeCount (s : State) :
    (weighSoftReset s).freeCount = s.freeCount := by
  unfold weighSoftReset; split <;> simp

/-! ### A soft reset -/

@[simp] theorem softReset_power (s : State) :
    (softReset s).power = s.power := by
  unfold softReset; simp only; split <;> simp

@[simp] theorem softReset_pins (s : State) :
    (softReset s).pins = s.pins := by
  unfold softReset; simp only; split <;> simp

@[simp] theorem softReset_scan (s : State) :
    (softReset s).scan = s.scan := by
  unfold softReset; simp only; split <;> simp

@[simp] theorem softReset_records (s : State) :
    (softReset s).records = s.records := by
  unfold softReset; simp only; split <;> simp

@[simp] theorem softReset_pending (s : State) :
    (softReset s).pending = s.pending := by
  unfold softReset; simp only; split <;> simp

@[simp] theorem softReset_freeCount (s : State) :
    (softReset s).freeCount = s.freeCount := by
  unfold softReset; simp only; split <;> simp

/-! ### The end of a response -/

@[simp] theorem responseEnds_power (s : State) :
    (responseEnds s).power = s.power := by
  rfl

@[simp] theorem responseEnds_pins (s : State) :
    (responseEnds s).pins = s.pins := by
  rfl

@[simp] theorem responseEnds_crane (s : State) :
    (responseEnds s).crane = s.crane := by
  rfl

@[simp] theorem responseEnds_scan (s : State) :
    (responseEnds s).scan = s.scan := by
  rfl

@[simp] theorem responseEnds_lau (s : State) :
    (responseEnds s).lau = s.lau := by
  rfl

@[simp] theorem responseEnds_limiter (s : State) :
    (responseEnds s).limiter = s.limiter := by
  rfl

@[simp] theorem responseEnds_demand (s : State) :
    (responseEnds s).demand = s.demand := by
  rfl

@[simp] theorem responseEnds_shaper (s : State) :
    (responseEnds s).shaper = s.shaper := by
  rfl

@[simp] theorem responseEnds_valve (s : State) :
    (responseEnds s).valve = s.valve := by
  rfl

@[simp] theorem responseEnds_weigh (s : State) :
    (responseEnds s).weigh = s.weigh := by
  rfl

@[simp] theorem responseEnds_records (s : State) :
    (responseEnds s).records = s.records := by
  rfl

@[simp] theorem responseEnds_tables (s : State) :
    (responseEnds s).tables = s.tables := by
  rfl

@[simp] theorem responseEnds_mgmt (s : State) :
    (responseEnds s).mgmt = s.mgmt := by
  rfl

@[simp] theorem responseEnds_pending (s : State) :
    (responseEnds s).pending = s.pending := by
  rfl

@[simp] theorem responseEnds_freeCount (s : State) :
    (responseEnds s).freeCount = s.freeCount := by
  rfl

/-! ### The write of an item starts -/

@[simp] theorem startItem_power (i : PersistItem) (s : State) :
    (startItem i s).power = s.power := by
  rfl

@[simp] theorem startItem_pins (i : PersistItem) (s : State) :
    (startItem i s).pins = s.pins := by
  rfl

@[simp] theorem startItem_cab (i : PersistItem) (s : State) :
    (startItem i s).cab = s.cab := by
  rfl

@[simp] theorem startItem_crane (i : PersistItem) (s : State) :
    (startItem i s).crane = s.crane := by
  rfl

@[simp] theorem startItem_scan (i : PersistItem) (s : State) :
    (startItem i s).scan = s.scan := by
  rfl

@[simp] theorem startItem_lau (i : PersistItem) (s : State) :
    (startItem i s).lau = s.lau := by
  rfl

@[simp] theorem startItem_limiter (i : PersistItem) (s : State) :
    (startItem i s).limiter = s.limiter := by
  rfl

@[simp] theorem startItem_demand (i : PersistItem) (s : State) :
    (startItem i s).demand = s.demand := by
  rfl

@[simp] theorem startItem_shaper (i : PersistItem) (s : State) :
    (startItem i s).shaper = s.shaper := by
  rfl

@[simp] theorem startItem_valve (i : PersistItem) (s : State) :
    (startItem i s).valve = s.valve := by
  rfl

@[simp] theorem startItem_weigh (i : PersistItem) (s : State) :
    (startItem i s).weigh = s.weigh := by
  rfl

@[simp] theorem startItem_records (i : PersistItem) (s : State) :
    (startItem i s).records = s.records := by
  rfl

@[simp] theorem startItem_mgmt (i : PersistItem) (s : State) :
    (startItem i s).mgmt = s.mgmt := by
  rfl

@[simp] theorem startItem_pending (i : PersistItem) (s : State) :
    (startItem i s).pending = s.pending := by
  rfl

@[simp] theorem startItem_freeCount (i : PersistItem) (s : State) :
    (startItem i s).freeCount = s.freeCount := by
  rfl

/-! ### The Cab Port's frame in flight is dropped -/

@[simp] theorem dropCabFlight_power (s : State) :
    (dropCabFlight s).power = s.power := by
  unfold dropCabFlight; simp only; split <;> rfl

@[simp] theorem dropCabFlight_pins (s : State) :
    (dropCabFlight s).pins = s.pins := by
  unfold dropCabFlight; simp only; split <;> rfl

@[simp] theorem dropCabFlight_crane (s : State) :
    (dropCabFlight s).crane = s.crane := by
  unfold dropCabFlight; simp only; split <;> rfl

@[simp] theorem dropCabFlight_scan (s : State) :
    (dropCabFlight s).scan = s.scan := by
  unfold dropCabFlight; simp only; split <;> rfl

@[simp] theorem dropCabFlight_lau (s : State) :
    (dropCabFlight s).lau = s.lau := by
  unfold dropCabFlight; simp only; split <;> rfl

@[simp] theorem dropCabFlight_limiter (s : State) :
    (dropCabFlight s).limiter = s.limiter := by
  unfold dropCabFlight; simp only; split <;> rfl

@[simp] theorem dropCabFlight_demand (s : State) :
    (dropCabFlight s).demand = s.demand := by
  unfold dropCabFlight; simp only; split <;> rfl

@[simp] theorem dropCabFlight_shaper (s : State) :
    (dropCabFlight s).shaper = s.shaper := by
  unfold dropCabFlight; simp only; split <;> rfl

@[simp] theorem dropCabFlight_valve (s : State) :
    (dropCabFlight s).valve = s.valve := by
  unfold dropCabFlight; simp only; split <;> rfl

@[simp] theorem dropCabFlight_weigh (s : State) :
    (dropCabFlight s).weigh = s.weigh := by
  unfold dropCabFlight; simp only; split <;> rfl

@[simp] theorem dropCabFlight_records (s : State) :
    (dropCabFlight s).records = s.records := by
  unfold dropCabFlight; simp only; split <;> rfl

@[simp] theorem dropCabFlight_tables (s : State) :
    (dropCabFlight s).tables = s.tables := by
  unfold dropCabFlight; simp only; split <;> rfl

@[simp] theorem dropCabFlight_pending (s : State) :
    (dropCabFlight s).pending = s.pending := by
  unfold dropCabFlight; simp only; split <;> rfl

@[simp] theorem dropCabFlight_freeCount (s : State) :
    (dropCabFlight s).freeCount = s.freeCount := by
  unfold dropCabFlight; simp only; split <;> rfl

/-! ### The Crane Port's frame in flight is dropped -/

@[simp] theorem dropCraneFlight_power (s : State) :
    (dropCraneFlight s).power = s.power := by
  unfold dropCraneFlight; split <;> rfl

@[simp] theorem dropCraneFlight_pins (s : State) :
    (dropCraneFlight s).pins = s.pins := by
  unfold dropCraneFlight; split <;> rfl

@[simp] theorem dropCraneFlight_cab (s : State) :
    (dropCraneFlight s).cab = s.cab := by
  unfold dropCraneFlight; split <;> rfl

@[simp] theorem dropCraneFlight_scan (s : State) :
    (dropCraneFlight s).scan = s.scan := by
  unfold dropCraneFlight; split <;> rfl

@[simp] theorem dropCraneFlight_lau (s : State) :
    (dropCraneFlight s).lau = s.lau := by
  unfold dropCraneFlight; split <;> rfl

@[simp] theorem dropCraneFlight_limiter (s : State) :
    (dropCraneFlight s).limiter = s.limiter := by
  unfold dropCraneFlight; split <;> rfl

@[simp] theorem dropCraneFlight_demand (s : State) :
    (dropCraneFlight s).demand = s.demand := by
  unfold dropCraneFlight; split <;> rfl

@[simp] theorem dropCraneFlight_shaper (s : State) :
    (dropCraneFlight s).shaper = s.shaper := by
  unfold dropCraneFlight; split <;> rfl

@[simp] theorem dropCraneFlight_weigh (s : State) :
    (dropCraneFlight s).weigh = s.weigh := by
  unfold dropCraneFlight; split <;> rfl

@[simp] theorem dropCraneFlight_records (s : State) :
    (dropCraneFlight s).records = s.records := by
  unfold dropCraneFlight; split <;> rfl

@[simp] theorem dropCraneFlight_tables (s : State) :
    (dropCraneFlight s).tables = s.tables := by
  unfold dropCraneFlight; split <;> rfl

@[simp] theorem dropCraneFlight_mgmt (s : State) :
    (dropCraneFlight s).mgmt = s.mgmt := by
  unfold dropCraneFlight; split <;> rfl

@[simp] theorem dropCraneFlight_pending (s : State) :
    (dropCraneFlight s).pending = s.pending := by
  unfold dropCraneFlight; split <;> rfl

@[simp] theorem dropCraneFlight_freeCount (s : State) :
    (dropCraneFlight s).freeCount = s.freeCount := by
  unfold dropCraneFlight; split <;> rfl

/-! ### A port's record -/

@[simp] theorem setPort_power (s : State) (id : PortId) (p : Port) :
    (setPort s id p).power = s.power := by
  cases id <;> rfl

@[simp] theorem setPort_pins (s : State) (id : PortId) (p : Port) :
    (setPort s id p).pins = s.pins := by
  cases id <;> rfl

@[simp] theorem setPort_scan (s : State) (id : PortId) (p : Port) :
    (setPort s id p).scan = s.scan := by
  cases id <;> rfl

@[simp] theorem setPort_lau (s : State) (id : PortId) (p : Port) :
    (setPort s id p).lau = s.lau := by
  cases id <;> rfl

@[simp] theorem setPort_limiter (s : State) (id : PortId) (p : Port) :
    (setPort s id p).limiter = s.limiter := by
  cases id <;> rfl

@[simp] theorem setPort_demand (s : State) (id : PortId) (p : Port) :
    (setPort s id p).demand = s.demand := by
  cases id <;> rfl

@[simp] theorem setPort_shaper (s : State) (id : PortId) (p : Port) :
    (setPort s id p).shaper = s.shaper := by
  cases id <;> rfl

@[simp] theorem setPort_valve (s : State) (id : PortId) (p : Port) :
    (setPort s id p).valve = s.valve := by
  cases id <;> rfl

@[simp] theorem setPort_weigh (s : State) (id : PortId) (p : Port) :
    (setPort s id p).weigh = s.weigh := by
  cases id <;> rfl

@[simp] theorem setPort_records (s : State) (id : PortId) (p : Port) :
    (setPort s id p).records = s.records := by
  cases id <;> rfl

@[simp] theorem setPort_tables (s : State) (id : PortId) (p : Port) :
    (setPort s id p).tables = s.tables := by
  cases id <;> rfl

@[simp] theorem setPort_mgmt (s : State) (id : PortId) (p : Port) :
    (setPort s id p).mgmt = s.mgmt := by
  cases id <;> rfl

@[simp] theorem setPort_pending (s : State) (id : PortId) (p : Port) :
    (setPort s id p).pending = s.pending := by
  cases id <;> rfl

@[simp] theorem setPort_freeCount (s : State) (id : PortId) (p : Port) :
    (setPort s id p).freeCount = s.freeCount := by
  cases id <;> rfl

/-! ### A port goes OFF -/

@[simp] theorem busOff_power (id : PortId) (s : State) :
    (busOff id s).power = s.power := by
  cases id <;> simp [busOff]

@[simp] theorem busOff_pins (id : PortId) (s : State) :
    (busOff id s).pins = s.pins := by
  cases id <;> simp [busOff]

@[simp] theorem busOff_scan (id : PortId) (s : State) :
    (busOff id s).scan = s.scan := by
  cases id <;> simp [busOff]

@[simp] theorem busOff_lau (id : PortId) (s : State) :
    (busOff id s).lau = s.lau := by
  cases id <;> simp [busOff]

@[simp] theorem busOff_limiter (id : PortId) (s : State) :
    (busOff id s).limiter = s.limiter := by
  cases id <;> simp [busOff]

@[simp] theorem busOff_shaper (id : PortId) (s : State) :
    (busOff id s).shaper = s.shaper := by
  cases id <;> simp [busOff]

@[simp] theorem busOff_records (id : PortId) (s : State) :
    (busOff id s).records = s.records := by
  cases id <;> simp [busOff]

@[simp] theorem busOff_tables (id : PortId) (s : State) :
    (busOff id s).tables = s.tables := by
  cases id <;> simp [busOff]

@[simp] theorem busOff_pending (id : PortId) (s : State) :
    (busOff id s).pending = s.pending := by
  cases id <;> simp [busOff]

@[simp] theorem busOff_freeCount (id : PortId) (s : State) :
    (busOff id s).freeCount = s.freeCount := by
  cases id <;> simp [busOff]

/-! ### What waits starts -/

@[simp] theorem startWaiting_power (id : PortId) (s : State) :
    (startWaiting id s).power = s.power := by
  cases id <;> simp [startWaiting]

@[simp] theorem startWaiting_pins (id : PortId) (s : State) :
    (startWaiting id s).pins = s.pins := by
  cases id <;> simp [startWaiting]

@[simp] theorem startWaiting_scan (id : PortId) (s : State) :
    (startWaiting id s).scan = s.scan := by
  cases id <;> simp [startWaiting]

@[simp] theorem startWaiting_lau (id : PortId) (s : State) :
    (startWaiting id s).lau = s.lau := by
  cases id <;> simp [startWaiting]

@[simp] theorem startWaiting_limiter (id : PortId) (s : State) :
    (startWaiting id s).limiter = s.limiter := by
  cases id <;> simp [startWaiting]

@[simp] theorem startWaiting_demand (id : PortId) (s : State) :
    (startWaiting id s).demand = s.demand := by
  cases id <;> simp [startWaiting]

@[simp] theorem startWaiting_shaper (id : PortId) (s : State) :
    (startWaiting id s).shaper = s.shaper := by
  cases id <;> simp [startWaiting]

@[simp] theorem startWaiting_weigh (id : PortId) (s : State) :
    (startWaiting id s).weigh = s.weigh := by
  cases id <;> simp [startWaiting]

@[simp] theorem startWaiting_records (id : PortId) (s : State) :
    (startWaiting id s).records = s.records := by
  cases id <;> simp [startWaiting]

@[simp] theorem startWaiting_tables (id : PortId) (s : State) :
    (startWaiting id s).tables = s.tables := by
  cases id <;> simp [startWaiting]

@[simp] theorem startWaiting_pending (id : PortId) (s : State) :
    (startWaiting id s).pending = s.pending := by
  cases id <;> simp [startWaiting]

@[simp] theorem startWaiting_freeCount (id : PortId) (s : State) :
    (startWaiting id s).freeCount = s.freeCount := by
  cases id <;> simp [startWaiting]

/-! ### A port recovers -/

@[simp] theorem recoverPort_power (id : PortId) (s : State) :
    (recoverPort id s).power = s.power := by
  simp [recoverPort]

@[simp] theorem recoverPort_pins (id : PortId) (s : State) :
    (recoverPort id s).pins = s.pins := by
  simp [recoverPort]

@[simp] theorem recoverPort_scan (id : PortId) (s : State) :
    (recoverPort id s).scan = s.scan := by
  simp [recoverPort]

@[simp] theorem recoverPort_lau (id : PortId) (s : State) :
    (recoverPort id s).lau = s.lau := by
  simp [recoverPort]

@[simp] theorem recoverPort_limiter (id : PortId) (s : State) :
    (recoverPort id s).limiter = s.limiter := by
  simp [recoverPort]

@[simp] theorem recoverPort_demand (id : PortId) (s : State) :
    (recoverPort id s).demand = s.demand := by
  simp [recoverPort]

@[simp] theorem recoverPort_shaper (id : PortId) (s : State) :
    (recoverPort id s).shaper = s.shaper := by
  simp [recoverPort]

@[simp] theorem recoverPort_weigh (id : PortId) (s : State) :
    (recoverPort id s).weigh = s.weigh := by
  simp [recoverPort]

@[simp] theorem recoverPort_records (id : PortId) (s : State) :
    (recoverPort id s).records = s.records := by
  simp [recoverPort]

@[simp] theorem recoverPort_tables (id : PortId) (s : State) :
    (recoverPort id s).tables = s.tables := by
  simp [recoverPort]

@[simp] theorem recoverPort_pending (id : PortId) (s : State) :
    (recoverPort id s).pending = s.pending := by
  simp [recoverPort]

@[simp] theorem recoverPort_freeCount (id : PortId) (s : State) :
    (recoverPort id s).freeCount = s.freeCount := by
  simp [recoverPort]

/-! ### Serving a request -/

/-- Serving a request leaves what its decision leaves. -/
theorem serve_power {req : Option Request} {p : Bool} {d : List Byte → State → State × Reply}
    (h : ∀ frame u, (d frame u).1.power = u.power) (s : State) : (serve req p d s).power = s.power := by
  unfold serve
  split
  · rfl
  · rename_i frame rest _
    have := h frame { s with cab := { s.cab with requests := rest } }
    simp only
    repeat' split
    all_goals simp [this]

/-- Serving a request leaves what its decision leaves. -/
theorem serve_pins {req : Option Request} {p : Bool} {d : List Byte → State → State × Reply}
    (h : ∀ frame u, (d frame u).1.pins = u.pins) (s : State) : (serve req p d s).pins = s.pins := by
  unfold serve
  split
  · rfl
  · rename_i frame rest _
    have := h frame { s with cab := { s.cab with requests := rest } }
    simp only
    repeat' split
    all_goals simp [this]

/-- Serving a request leaves what its decision leaves. -/
theorem serve_crane {req : Option Request} {p : Bool} {d : List Byte → State → State × Reply}
    (h : ∀ frame u, (d frame u).1.crane = u.crane) (s : State) : (serve req p d s).crane = s.crane := by
  unfold serve
  split
  · rfl
  · rename_i frame rest _
    have := h frame { s with cab := { s.cab with requests := rest } }
    simp only
    repeat' split
    all_goals simp [this]

/-- Serving a request leaves what its decision leaves. -/
theorem serve_scan {req : Option Request} {p : Bool} {d : List Byte → State → State × Reply}
    (h : ∀ frame u, (d frame u).1.scan = u.scan) (s : State) : (serve req p d s).scan = s.scan := by
  unfold serve
  split
  · rfl
  · rename_i frame rest _
    have := h frame { s with cab := { s.cab with requests := rest } }
    simp only
    repeat' split
    all_goals simp [this]

/-- Serving a request leaves what its decision leaves. -/
theorem serve_lau {req : Option Request} {p : Bool} {d : List Byte → State → State × Reply}
    (h : ∀ frame u, (d frame u).1.lau = u.lau) (s : State) : (serve req p d s).lau = s.lau := by
  unfold serve
  split
  · rfl
  · rename_i frame rest _
    have := h frame { s with cab := { s.cab with requests := rest } }
    simp only
    repeat' split
    all_goals simp [this]

/-- Serving a request leaves what its decision leaves. -/
theorem serve_limiter {req : Option Request} {p : Bool} {d : List Byte → State → State × Reply}
    (h : ∀ frame u, (d frame u).1.limiter = u.limiter) (s : State) : (serve req p d s).limiter = s.limiter := by
  unfold serve
  split
  · rfl
  · rename_i frame rest _
    have := h frame { s with cab := { s.cab with requests := rest } }
    simp only
    repeat' split
    all_goals simp [this]

/-- Serving a request leaves what its decision leaves. -/
theorem serve_demand {req : Option Request} {p : Bool} {d : List Byte → State → State × Reply}
    (h : ∀ frame u, (d frame u).1.demand = u.demand) (s : State) : (serve req p d s).demand = s.demand := by
  unfold serve
  split
  · rfl
  · rename_i frame rest _
    have := h frame { s with cab := { s.cab with requests := rest } }
    simp only
    repeat' split
    all_goals simp [this]

/-- Serving a request leaves what its decision leaves. -/
theorem serve_shaper {req : Option Request} {p : Bool} {d : List Byte → State → State × Reply}
    (h : ∀ frame u, (d frame u).1.shaper = u.shaper) (s : State) : (serve req p d s).shaper = s.shaper := by
  unfold serve
  split
  · rfl
  · rename_i frame rest _
    have := h frame { s with cab := { s.cab with requests := rest } }
    simp only
    repeat' split
    all_goals simp [this]

/-- Serving a request leaves what its decision leaves. -/
theorem serve_valve {req : Option Request} {p : Bool} {d : List Byte → State → State × Reply}
    (h : ∀ frame u, (d frame u).1.valve = u.valve) (s : State) : (serve req p d s).valve = s.valve := by
  unfold serve
  split
  · rfl
  · rename_i frame rest _
    have := h frame { s with cab := { s.cab with requests := rest } }
    simp only
    repeat' split
    all_goals simp [this]

/-- Serving a request leaves what its decision leaves. -/
theorem serve_weigh {req : Option Request} {p : Bool} {d : List Byte → State → State × Reply}
    (h : ∀ frame u, (d frame u).1.weigh = u.weigh) (s : State) : (serve req p d s).weigh = s.weigh := by
  unfold serve
  split
  · rfl
  · rename_i frame rest _
    have := h frame { s with cab := { s.cab with requests := rest } }
    simp only
    repeat' split
    all_goals simp [this]

/-- Serving a request leaves what its decision leaves. -/
theorem serve_records {req : Option Request} {p : Bool} {d : List Byte → State → State × Reply}
    (h : ∀ frame u, (d frame u).1.records = u.records) (s : State) : (serve req p d s).records = s.records := by
  unfold serve
  split
  · rfl
  · rename_i frame rest _
    have := h frame { s with cab := { s.cab with requests := rest } }
    simp only
    repeat' split
    all_goals simp [this]

/-- Serving a request leaves what its decision leaves. -/
theorem serve_tables {req : Option Request} {p : Bool} {d : List Byte → State → State × Reply}
    (h : ∀ frame u, (d frame u).1.tables = u.tables) (s : State) : (serve req p d s).tables = s.tables := by
  unfold serve
  split
  · rfl
  · rename_i frame rest _
    have := h frame { s with cab := { s.cab with requests := rest } }
    simp only
    repeat' split
    all_goals simp [this]

/-- Serving a request leaves what its decision leaves. -/
theorem serve_pending {req : Option Request} {p : Bool} {d : List Byte → State → State × Reply}
    (h : ∀ frame u, (d frame u).1.pending = u.pending) (s : State) : (serve req p d s).pending = s.pending := by
  unfold serve
  split
  · rfl
  · rename_i frame rest _
    have := h frame { s with cab := { s.cab with requests := rest } }
    simp only
    repeat' split
    all_goals simp [this]

/-! ### Decisions of requests -/

@[simp] theorem decideReadStatus_cab (x : List Byte) (s : State) : (decideReadStatus x s).1.cab = s.cab := by
  unfold decideReadStatus; (try simp only); (repeat' split) <;> rfl

@[simp] theorem decideReadStatus_crane (x : List Byte) (s : State) : (decideReadStatus x s).1.crane = s.crane := by
  unfold decideReadStatus; (try simp only); (repeat' split) <;> rfl

@[simp] theorem decideReadStatus_lau (x : List Byte) (s : State) : (decideReadStatus x s).1.lau = s.lau := by
  unfold decideReadStatus; (try simp only); (repeat' split) <;> rfl

@[simp] theorem decideReadStatus_limiter (x : List Byte) (s : State) : (decideReadStatus x s).1.limiter = s.limiter := by
  unfold decideReadStatus; (try simp only); (repeat' split) <;> rfl

@[simp] theorem decideReadStatus_demand (x : List Byte) (s : State) : (decideReadStatus x s).1.demand = s.demand := by
  unfold decideReadStatus; (try simp only); (repeat' split) <;> rfl

@[simp] theorem decideReadStatus_shaper (x : List Byte) (s : State) : (decideReadStatus x s).1.shaper = s.shaper := by
  unfold decideReadStatus; (try simp only); (repeat' split) <;> rfl

@[simp] theorem decideReadStatus_valve (x : List Byte) (s : State) : (decideReadStatus x s).1.valve = s.valve := by
  unfold decideReadStatus; (try simp only); (repeat' split) <;> rfl

@[simp] theorem decideReadStatus_weigh (x : List Byte) (s : State) : (decideReadStatus x s).1.weigh = s.weigh := by
  unfold decideReadStatus; (try simp only); (repeat' split) <;> rfl

@[simp] theorem decideReadStatus_records (x : List Byte) (s : State) : (decideReadStatus x s).1.records = s.records := by
  unfold decideReadStatus; (try simp only); (repeat' split) <;> rfl

@[simp] theorem decideReadStatus_tables (x : List Byte) (s : State) : (decideReadStatus x s).1.tables = s.tables := by
  unfold decideReadStatus; (try simp only); (repeat' split) <;> rfl

@[simp] theorem decideReadStatus_pending (x : List Byte) (s : State) : (decideReadStatus x s).1.pending = s.pending := by
  unfold decideReadStatus; (try simp only); (repeat' split) <;> rfl

@[simp] theorem decideReadNotices_cab (x : List Byte) (s : State) : (decideReadNotices x s).1.cab = s.cab :=
  rfl

@[simp] theorem decideReadNotices_crane (x : List Byte) (s : State) : (decideReadNotices x s).1.crane = s.crane :=
  rfl

@[simp] theorem decideReadNotices_lau (x : List Byte) (s : State) : (decideReadNotices x s).1.lau = s.lau :=
  rfl

@[simp] theorem decideReadNotices_limiter (x : List Byte) (s : State) : (decideReadNotices x s).1.limiter = s.limiter :=
  rfl

@[simp] theorem decideReadNotices_demand (x : List Byte) (s : State) : (decideReadNotices x s).1.demand = s.demand :=
  rfl

@[simp] theorem decideReadNotices_shaper (x : List Byte) (s : State) : (decideReadNotices x s).1.shaper = s.shaper :=
  rfl

@[simp] theorem decideReadNotices_valve (x : List Byte) (s : State) : (decideReadNotices x s).1.valve = s.valve :=
  rfl

@[simp] theorem decideReadNotices_weigh (x : List Byte) (s : State) : (decideReadNotices x s).1.weigh = s.weigh :=
  rfl

@[simp] theorem decideReadNotices_records (x : List Byte) (s : State) : (decideReadNotices x s).1.records = s.records :=
  rfl

@[simp] theorem decideReadNotices_tables (x : List Byte) (s : State) : (decideReadNotices x s).1.tables = s.tables :=
  rfl

@[simp] theorem decideReadNotices_pending (x : List Byte) (s : State) : (decideReadNotices x s).1.pending = s.pending :=
  rfl

@[simp] theorem decideSetNoticeMask_cab (x : List Byte) (s : State) : (decideSetNoticeMask x s).1.cab = s.cab := by
  unfold decideSetNoticeMask; (try simp only); (repeat' split) <;> rfl

@[simp] theorem decideSetNoticeMask_crane (x : List Byte) (s : State) : (decideSetNoticeMask x s).1.crane = s.crane := by
  unfold decideSetNoticeMask; (try simp only); (repeat' split) <;> rfl

@[simp] theorem decideSetNoticeMask_lau (x : List Byte) (s : State) : (decideSetNoticeMask x s).1.lau = s.lau := by
  unfold decideSetNoticeMask; (try simp only); (repeat' split) <;> rfl

@[simp] theorem decideSetNoticeMask_limiter (x : List Byte) (s : State) : (decideSetNoticeMask x s).1.limiter = s.limiter := by
  unfold decideSetNoticeMask; (try simp only); (repeat' split) <;> rfl

@[simp] theorem decideSetNoticeMask_demand (x : List Byte) (s : State) : (decideSetNoticeMask x s).1.demand = s.demand := by
  unfold decideSetNoticeMask; (try simp only); (repeat' split) <;> rfl

@[simp] theorem decideSetNoticeMask_shaper (x : List Byte) (s : State) : (decideSetNoticeMask x s).1.shaper = s.shaper := by
  unfold decideSetNoticeMask; (try simp only); (repeat' split) <;> rfl

@[simp] theorem decideSetNoticeMask_valve (x : List Byte) (s : State) : (decideSetNoticeMask x s).1.valve = s.valve := by
  unfold decideSetNoticeMask; (try simp only); (repeat' split) <;> rfl

@[simp] theorem decideSetNoticeMask_weigh (x : List Byte) (s : State) : (decideSetNoticeMask x s).1.weigh = s.weigh := by
  unfold decideSetNoticeMask; (try simp only); (repeat' split) <;> rfl

@[simp] theorem decideSetNoticeMask_records (x : List Byte) (s : State) : (decideSetNoticeMask x s).1.records = s.records := by
  unfold decideSetNoticeMask; (try simp only); (repeat' split) <;> rfl

@[simp] theorem decideSetNoticeMask_tables (x : List Byte) (s : State) : (decideSetNoticeMask x s).1.tables = s.tables := by
  unfold decideSetNoticeMask; (try simp only); (repeat' split) <;> rfl

@[simp] theorem decideSetNoticeMask_pending (x : List Byte) (s : State) : (decideSetNoticeMask x s).1.pending = s.pending := by
  unfold decideSetNoticeMask; (try simp only); (repeat' split) <;> rfl

@[simp] theorem decideDeploy_cab (x : List Byte) (s : State) : (decideDeploy x s).1.cab = s.cab := by
  unfold decideDeploy; (repeat' split) <;> (first | rfl | simp)

@[simp] theorem decideDeploy_crane (x : List Byte) (s : State) : (decideDeploy x s).1.crane = s.crane := by
  unfold decideDeploy; (repeat' split) <;> (first | rfl | simp)

@[simp] theorem decideDeploy_lau (x : List Byte) (s : State) : (decideDeploy x s).1.lau = s.lau := by
  unfold decideDeploy; (repeat' split) <;> (first | rfl | simp)

@[simp] theorem decideDeploy_limiter (x : List Byte) (s : State) : (decideDeploy x s).1.limiter = s.limiter := by
  unfold decideDeploy; (repeat' split) <;> (first | rfl | simp)

@[simp] theorem decideDeploy_shaper (x : List Byte) (s : State) : (decideDeploy x s).1.shaper = s.shaper := by
  unfold decideDeploy; (repeat' split) <;> (first | rfl | simp)

@[simp] theorem decideDeploy_valve (x : List Byte) (s : State) : (decideDeploy x s).1.valve = s.valve := by
  unfold decideDeploy; (repeat' split) <;> (first | rfl | simp)

@[simp] theorem decideDeploy_records (x : List Byte) (s : State) : (decideDeploy x s).1.records = s.records := by
  unfold decideDeploy; (repeat' split) <;> (first | rfl | simp)

@[simp] theorem decideDeploy_tables (x : List Byte) (s : State) : (decideDeploy x s).1.tables = s.tables := by
  unfold decideDeploy; (repeat' split) <;> (first | rfl | simp)

@[simp] theorem decideDeploy_pending (x : List Byte) (s : State) : (decideDeploy x s).1.pending = s.pending := by
  unfold decideDeploy; (repeat' split) <;> (first | rfl | simp)

@[simp] theorem decideStow_cab (x : List Byte) (s : State) : (decideStow x s).1.cab = s.cab := by
  simp [decideStow]

@[simp] theorem decideStow_crane (x : List Byte) (s : State) : (decideStow x s).1.crane = s.crane := by
  simp [decideStow]

@[simp] theorem decideStow_lau (x : List Byte) (s : State) : (decideStow x s).1.lau = s.lau := by
  simp [decideStow]

@[simp] theorem decideStow_limiter (x : List Byte) (s : State) : (decideStow x s).1.limiter = s.limiter := by
  simp [decideStow]

@[simp] theorem decideStow_shaper (x : List Byte) (s : State) : (decideStow x s).1.shaper = s.shaper := by
  simp [decideStow]

@[simp] theorem decideStow_valve (x : List Byte) (s : State) : (decideStow x s).1.valve = s.valve := by
  simp [decideStow]

@[simp] theorem decideStow_records (x : List Byte) (s : State) : (decideStow x s).1.records = s.records := by
  simp [decideStow]

@[simp] theorem decideStow_tables (x : List Byte) (s : State) : (decideStow x s).1.tables = s.tables := by
  simp [decideStow]

@[simp] theorem decideStow_pending (x : List Byte) (s : State) : (decideStow x s).1.pending = s.pending := by
  simp [decideStow]

@[simp] theorem decideSelectAssortment_cab (x : List Byte) (s : State) : (decideSelectAssortment x s).1.cab = s.cab := by
  unfold decideSelectAssortment; (try simp only); (repeat' split) <;> rfl

@[simp] theorem decideSelectAssortment_crane (x : List Byte) (s : State) : (decideSelectAssortment x s).1.crane = s.crane := by
  unfold decideSelectAssortment; (try simp only); (repeat' split) <;> rfl

@[simp] theorem decideSelectAssortment_lau (x : List Byte) (s : State) : (decideSelectAssortment x s).1.lau = s.lau := by
  unfold decideSelectAssortment; (try simp only); (repeat' split) <;> rfl

@[simp] theorem decideSelectAssortment_limiter (x : List Byte) (s : State) : (decideSelectAssortment x s).1.limiter = s.limiter := by
  unfold decideSelectAssortment; (try simp only); (repeat' split) <;> rfl

@[simp] theorem decideSelectAssortment_demand (x : List Byte) (s : State) : (decideSelectAssortment x s).1.demand = s.demand := by
  unfold decideSelectAssortment; (try simp only); (repeat' split) <;> rfl

@[simp] theorem decideSelectAssortment_shaper (x : List Byte) (s : State) : (decideSelectAssortment x s).1.shaper = s.shaper := by
  unfold decideSelectAssortment; (try simp only); (repeat' split) <;> rfl

@[simp] theorem decideSelectAssortment_valve (x : List Byte) (s : State) : (decideSelectAssortment x s).1.valve = s.valve := by
  unfold decideSelectAssortment; (try simp only); (repeat' split) <;> rfl

@[simp] theorem decideSelectAssortment_weigh (x : List Byte) (s : State) : (decideSelectAssortment x s).1.weigh = s.weigh := by
  unfold decideSelectAssortment; (try simp only); (repeat' split) <;> rfl

@[simp] theorem decideSelectAssortment_tables (x : List Byte) (s : State) : (decideSelectAssortment x s).1.tables = s.tables := by
  unfold decideSelectAssortment; (try simp only); (repeat' split) <;> rfl

@[simp] theorem decideSelectAssortment_mgmt (x : List Byte) (s : State) : (decideSelectAssortment x s).1.mgmt = s.mgmt := by
  unfold decideSelectAssortment; (try simp only); (repeat' split) <;> rfl

@[simp] theorem decideSelectAssortment_pending (x : List Byte) (s : State) : (decideSelectAssortment x s).1.pending = s.pending := by
  unfold decideSelectAssortment; (try simp only); (repeat' split) <;> rfl

@[simp] theorem decideOpenLoad_cab (x : List Byte) (s : State) : (decideOpenLoad x s).1.cab = s.cab := by
  unfold decideOpenLoad; (try simp only); (repeat' split) <;> rfl

@[simp] theorem decideOpenLoad_crane (x : List Byte) (s : State) : (decideOpenLoad x s).1.crane = s.crane := by
  unfold decideOpenLoad; (try simp only); (repeat' split) <;> rfl

@[simp] theorem decideOpenLoad_lau (x : List Byte) (s : State) : (decideOpenLoad x s).1.lau = s.lau := by
  unfold decideOpenLoad; (try simp only); (repeat' split) <;> rfl

@[simp] theorem decideOpenLoad_limiter (x : List Byte) (s : State) : (decideOpenLoad x s).1.limiter = s.limiter := by
  unfold decideOpenLoad; (try simp only); (repeat' split) <;> rfl

@[simp] theorem decideOpenLoad_demand (x : List Byte) (s : State) : (decideOpenLoad x s).1.demand = s.demand := by
  unfold decideOpenLoad; (try simp only); (repeat' split) <;> rfl

@[simp] theorem decideOpenLoad_shaper (x : List Byte) (s : State) : (decideOpenLoad x s).1.shaper = s.shaper := by
  unfold decideOpenLoad; (try simp only); (repeat' split) <;> rfl

@[simp] theorem decideOpenLoad_valve (x : List Byte) (s : State) : (decideOpenLoad x s).1.valve = s.valve := by
  unfold decideOpenLoad; (try simp only); (repeat' split) <;> rfl

@[simp] theorem decideOpenLoad_weigh (x : List Byte) (s : State) : (decideOpenLoad x s).1.weigh = s.weigh := by
  unfold decideOpenLoad; (try simp only); (repeat' split) <;> rfl

@[simp] theorem decideOpenLoad_tables (x : List Byte) (s : State) : (decideOpenLoad x s).1.tables = s.tables := by
  unfold decideOpenLoad; (try simp only); (repeat' split) <;> rfl

@[simp] theorem decideOpenLoad_mgmt (x : List Byte) (s : State) : (decideOpenLoad x s).1.mgmt = s.mgmt := by
  unfold decideOpenLoad; (try simp only); (repeat' split) <;> rfl

@[simp] theorem decideOpenLoad_pending (x : List Byte) (s : State) : (decideOpenLoad x s).1.pending = s.pending := by
  unfold decideOpenLoad; (try simp only); (repeat' split) <;> rfl

@[simp] theorem decideCloseLoad_cab (x : List Byte) (s : State) : (decideCloseLoad x s).1.cab = s.cab :=
  rfl

@[simp] theorem decideCloseLoad_crane (x : List Byte) (s : State) : (decideCloseLoad x s).1.crane = s.crane :=
  rfl

@[simp] theorem decideCloseLoad_lau (x : List Byte) (s : State) : (decideCloseLoad x s).1.lau = s.lau :=
  rfl

@[simp] theorem decideCloseLoad_limiter (x : List Byte) (s : State) : (decideCloseLoad x s).1.limiter = s.limiter :=
  rfl

@[simp] theorem decideCloseLoad_demand (x : List Byte) (s : State) : (decideCloseLoad x s).1.demand = s.demand :=
  rfl

@[simp] theorem decideCloseLoad_shaper (x : List Byte) (s : State) : (decideCloseLoad x s).1.shaper = s.shaper :=
  rfl

@[simp] theorem decideCloseLoad_valve (x : List Byte) (s : State) : (decideCloseLoad x s).1.valve = s.valve :=
  rfl

@[simp] theorem decideCloseLoad_weigh (x : List Byte) (s : State) : (decideCloseLoad x s).1.weigh = s.weigh :=
  rfl

@[simp] theorem decideCloseLoad_tables (x : List Byte) (s : State) : (decideCloseLoad x s).1.tables = s.tables :=
  rfl

@[simp] theorem decideCloseLoad_mgmt (x : List Byte) (s : State) : (decideCloseLoad x s).1.mgmt = s.mgmt :=
  rfl

@[simp] theorem decideCloseLoad_pending (x : List Byte) (s : State) : (decideCloseLoad x s).1.pending = s.pending :=
  rfl

@[simp] theorem decideReadTally_cab (x : List Byte) (s : State) : (decideReadTally x s).1.cab = s.cab := by
  unfold decideReadTally; (try simp only); (repeat' split) <;> rfl

@[simp] theorem decideReadTally_crane (x : List Byte) (s : State) : (decideReadTally x s).1.crane = s.crane := by
  unfold decideReadTally; (try simp only); (repeat' split) <;> rfl

@[simp] theorem decideReadTally_lau (x : List Byte) (s : State) : (decideReadTally x s).1.lau = s.lau := by
  unfold decideReadTally; (try simp only); (repeat' split) <;> rfl

@[simp] theorem decideReadTally_limiter (x : List Byte) (s : State) : (decideReadTally x s).1.limiter = s.limiter := by
  unfold decideReadTally; (try simp only); (repeat' split) <;> rfl

@[simp] theorem decideReadTally_demand (x : List Byte) (s : State) : (decideReadTally x s).1.demand = s.demand := by
  unfold decideReadTally; (try simp only); (repeat' split) <;> rfl

@[simp] theorem decideReadTally_shaper (x : List Byte) (s : State) : (decideReadTally x s).1.shaper = s.shaper := by
  unfold decideReadTally; (try simp only); (repeat' split) <;> rfl

@[simp] theorem decideReadTally_valve (x : List Byte) (s : State) : (decideReadTally x s).1.valve = s.valve := by
  unfold decideReadTally; (try simp only); (repeat' split) <;> rfl

@[simp] theorem decideReadTally_weigh (x : List Byte) (s : State) : (decideReadTally x s).1.weigh = s.weigh := by
  unfold decideReadTally; (try simp only); (repeat' split) <;> rfl

@[simp] theorem decideReadTally_records (x : List Byte) (s : State) : (decideReadTally x s).1.records = s.records := by
  unfold decideReadTally; (try simp only); (repeat' split) <;> rfl

@[simp] theorem decideReadTally_tables (x : List Byte) (s : State) : (decideReadTally x s).1.tables = s.tables := by
  unfold decideReadTally; (try simp only); (repeat' split) <;> rfl

@[simp] theorem decideReadTally_mgmt (x : List Byte) (s : State) : (decideReadTally x s).1.mgmt = s.mgmt := by
  unfold decideReadTally; (try simp only); (repeat' split) <;> rfl

@[simp] theorem decideReadTally_pending (x : List Byte) (s : State) : (decideReadTally x s).1.pending = s.pending := by
  unfold decideReadTally; (try simp only); (repeat' split) <;> rfl

@[simp] theorem decideReadRecord_cab (x : List Byte) (s : State) : (decideReadRecord x s).1.cab = s.cab := by
  unfold decideReadRecord; (try simp only); (repeat' split) <;> rfl

@[simp] theorem decideReadRecord_crane (x : List Byte) (s : State) : (decideReadRecord x s).1.crane = s.crane := by
  unfold decideReadRecord; (try simp only); (repeat' split) <;> rfl

@[simp] theorem decideReadRecord_lau (x : List Byte) (s : State) : (decideReadRecord x s).1.lau = s.lau := by
  unfold decideReadRecord; (try simp only); (repeat' split) <;> rfl

@[simp] theorem decideReadRecord_limiter (x : List Byte) (s : State) : (decideReadRecord x s).1.limiter = s.limiter := by
  unfold decideReadRecord; (try simp only); (repeat' split) <;> rfl

@[simp] theorem decideReadRecord_demand (x : List Byte) (s : State) : (decideReadRecord x s).1.demand = s.demand := by
  unfold decideReadRecord; (try simp only); (repeat' split) <;> rfl

@[simp] theorem decideReadRecord_shaper (x : List Byte) (s : State) : (decideReadRecord x s).1.shaper = s.shaper := by
  unfold decideReadRecord; (try simp only); (repeat' split) <;> rfl

@[simp] theorem decideReadRecord_valve (x : List Byte) (s : State) : (decideReadRecord x s).1.valve = s.valve := by
  unfold decideReadRecord; (try simp only); (repeat' split) <;> rfl

@[simp] theorem decideReadRecord_weigh (x : List Byte) (s : State) : (decideReadRecord x s).1.weigh = s.weigh := by
  unfold decideReadRecord; (try simp only); (repeat' split) <;> rfl

@[simp] theorem decideReadRecord_records (x : List Byte) (s : State) : (decideReadRecord x s).1.records = s.records := by
  unfold decideReadRecord; (try simp only); (repeat' split) <;> rfl

@[simp] theorem decideReadRecord_tables (x : List Byte) (s : State) : (decideReadRecord x s).1.tables = s.tables := by
  unfold decideReadRecord; (try simp only); (repeat' split) <;> rfl

@[simp] theorem decideReadRecord_mgmt (x : List Byte) (s : State) : (decideReadRecord x s).1.mgmt = s.mgmt := by
  unfold decideReadRecord; (try simp only); (repeat' split) <;> rfl

@[simp] theorem decideReadRecord_pending (x : List Byte) (s : State) : (decideReadRecord x s).1.pending = s.pending := by
  unfold decideReadRecord; (try simp only); (repeat' split) <;> rfl

@[simp] theorem decideAckRecords_cab (x : List Byte) (s : State) : (decideAckRecords x s).1.cab = s.cab := by
  unfold decideAckRecords; (repeat' split) <;> rfl

@[simp] theorem decideAckRecords_crane (x : List Byte) (s : State) : (decideAckRecords x s).1.crane = s.crane := by
  unfold decideAckRecords; (repeat' split) <;> rfl

@[simp] theorem decideAckRecords_lau (x : List Byte) (s : State) : (decideAckRecords x s).1.lau = s.lau := by
  unfold decideAckRecords; (repeat' split) <;> rfl

@[simp] theorem decideAckRecords_limiter (x : List Byte) (s : State) : (decideAckRecords x s).1.limiter = s.limiter := by
  unfold decideAckRecords; (repeat' split) <;> rfl

@[simp] theorem decideAckRecords_demand (x : List Byte) (s : State) : (decideAckRecords x s).1.demand = s.demand := by
  unfold decideAckRecords; (repeat' split) <;> rfl

@[simp] theorem decideAckRecords_shaper (x : List Byte) (s : State) : (decideAckRecords x s).1.shaper = s.shaper := by
  unfold decideAckRecords; (repeat' split) <;> rfl

@[simp] theorem decideAckRecords_valve (x : List Byte) (s : State) : (decideAckRecords x s).1.valve = s.valve := by
  unfold decideAckRecords; (repeat' split) <;> rfl

@[simp] theorem decideAckRecords_weigh (x : List Byte) (s : State) : (decideAckRecords x s).1.weigh = s.weigh := by
  unfold decideAckRecords; (repeat' split) <;> rfl

@[simp] theorem decideAckRecords_tables (x : List Byte) (s : State) : (decideAckRecords x s).1.tables = s.tables := by
  unfold decideAckRecords; (repeat' split) <;> rfl

@[simp] theorem decideAckRecords_mgmt (x : List Byte) (s : State) : (decideAckRecords x s).1.mgmt = s.mgmt := by
  unfold decideAckRecords; (repeat' split) <;> rfl

@[simp] theorem decideAckRecords_pending (x : List Byte) (s : State) : (decideAckRecords x s).1.pending = s.pending := by
  unfold decideAckRecords; (repeat' split) <;> rfl

@[simp] theorem decideWeighNow_cab (x : List Byte) (s : State) : (decideWeighNow x s).1.cab = s.cab := by
  unfold decideWeighNow requestCycle; (repeat' split) <;> rfl

@[simp] theorem decideWeighNow_crane (x : List Byte) (s : State) : (decideWeighNow x s).1.crane = s.crane := by
  unfold decideWeighNow requestCycle; (repeat' split) <;> rfl

@[simp] theorem decideWeighNow_lau (x : List Byte) (s : State) : (decideWeighNow x s).1.lau = s.lau := by
  unfold decideWeighNow requestCycle; (repeat' split) <;> rfl

@[simp] theorem decideWeighNow_limiter (x : List Byte) (s : State) : (decideWeighNow x s).1.limiter = s.limiter := by
  unfold decideWeighNow requestCycle; (repeat' split) <;> rfl

@[simp] theorem decideWeighNow_demand (x : List Byte) (s : State) : (decideWeighNow x s).1.demand = s.demand := by
  unfold decideWeighNow requestCycle; (repeat' split) <;> rfl

@[simp] theorem decideWeighNow_shaper (x : List Byte) (s : State) : (decideWeighNow x s).1.shaper = s.shaper := by
  unfold decideWeighNow requestCycle; (repeat' split) <;> rfl

@[simp] theorem decideWeighNow_valve (x : List Byte) (s : State) : (decideWeighNow x s).1.valve = s.valve := by
  unfold decideWeighNow requestCycle; (repeat' split) <;> rfl

@[simp] theorem decideWeighNow_records (x : List Byte) (s : State) : (decideWeighNow x s).1.records = s.records := by
  unfold decideWeighNow requestCycle; (repeat' split) <;> rfl

@[simp] theorem decideWeighNow_tables (x : List Byte) (s : State) : (decideWeighNow x s).1.tables = s.tables := by
  unfold decideWeighNow requestCycle; (repeat' split) <;> rfl

@[simp] theorem decideWeighNow_mgmt (x : List Byte) (s : State) : (decideWeighNow x s).1.mgmt = s.mgmt := by
  unfold decideWeighNow requestCycle; (repeat' split) <;> rfl

@[simp] theorem decideWeighNow_pending (x : List Byte) (s : State) : (decideWeighNow x s).1.pending = s.pending := by
  unfold decideWeighNow requestCycle; (repeat' split) <;> rfl

@[simp] theorem decideTare_cab (x : List Byte) (s : State) : (decideTare x s).1.cab = s.cab := by
  unfold decideTare requestCycle; (repeat' split) <;> rfl

@[simp] theorem decideTare_crane (x : List Byte) (s : State) : (decideTare x s).1.crane = s.crane := by
  unfold decideTare requestCycle; (repeat' split) <;> rfl

@[simp] theorem decideTare_lau (x : List Byte) (s : State) : (decideTare x s).1.lau = s.lau := by
  unfold decideTare requestCycle; (repeat' split) <;> rfl

@[simp] theorem decideTare_limiter (x : List Byte) (s : State) : (decideTare x s).1.limiter = s.limiter := by
  unfold decideTare requestCycle; (repeat' split) <;> rfl

@[simp] theorem decideTare_demand (x : List Byte) (s : State) : (decideTare x s).1.demand = s.demand := by
  unfold decideTare requestCycle; (repeat' split) <;> rfl

@[simp] theorem decideTare_shaper (x : List Byte) (s : State) : (decideTare x s).1.shaper = s.shaper := by
  unfold decideTare requestCycle; (repeat' split) <;> rfl

@[simp] theorem decideTare_valve (x : List Byte) (s : State) : (decideTare x s).1.valve = s.valve := by
  unfold decideTare requestCycle; (repeat' split) <;> rfl

@[simp] theorem decideTare_records (x : List Byte) (s : State) : (decideTare x s).1.records = s.records := by
  unfold decideTare requestCycle; (repeat' split) <;> rfl

@[simp] theorem decideTare_tables (x : List Byte) (s : State) : (decideTare x s).1.tables = s.tables := by
  unfold decideTare requestCycle; (repeat' split) <;> rfl

@[simp] theorem decideTare_mgmt (x : List Byte) (s : State) : (decideTare x s).1.mgmt = s.mgmt := by
  unfold decideTare requestCycle; (repeat' split) <;> rfl

@[simp] theorem decideTare_pending (x : List Byte) (s : State) : (decideTare x s).1.pending = s.pending := by
  unfold decideTare requestCycle; (repeat' split) <;> rfl

@[simp] theorem decideCancelWeigh_cab (x : List Byte) (s : State) : (decideCancelWeigh x s).1.cab = s.cab := by
  unfold decideCancelWeigh; (try simp only); (repeat' split) <;> (first | rfl | simp)

@[simp] theorem decideCancelWeigh_crane (x : List Byte) (s : State) : (decideCancelWeigh x s).1.crane = s.crane := by
  unfold decideCancelWeigh; (try simp only); (repeat' split) <;> (first | rfl | simp)

@[simp] theorem decideCancelWeigh_lau (x : List Byte) (s : State) : (decideCancelWeigh x s).1.lau = s.lau := by
  unfold decideCancelWeigh; (try simp only); (repeat' split) <;> (first | rfl | simp)

@[simp] theorem decideCancelWeigh_limiter (x : List Byte) (s : State) : (decideCancelWeigh x s).1.limiter = s.limiter := by
  unfold decideCancelWeigh; (try simp only); (repeat' split) <;> (first | rfl | simp)

@[simp] theorem decideCancelWeigh_demand (x : List Byte) (s : State) : (decideCancelWeigh x s).1.demand = s.demand := by
  unfold decideCancelWeigh; (try simp only); (repeat' split) <;> (first | rfl | simp)

@[simp] theorem decideCancelWeigh_shaper (x : List Byte) (s : State) : (decideCancelWeigh x s).1.shaper = s.shaper := by
  unfold decideCancelWeigh; (try simp only); (repeat' split) <;> (first | rfl | simp)

@[simp] theorem decideCancelWeigh_valve (x : List Byte) (s : State) : (decideCancelWeigh x s).1.valve = s.valve := by
  unfold decideCancelWeigh; (try simp only); (repeat' split) <;> (first | rfl | simp)

@[simp] theorem decideCancelWeigh_records (x : List Byte) (s : State) : (decideCancelWeigh x s).1.records = s.records := by
  unfold decideCancelWeigh; (try simp only); (repeat' split) <;> (first | rfl | simp)

@[simp] theorem decideCancelWeigh_tables (x : List Byte) (s : State) : (decideCancelWeigh x s).1.tables = s.tables := by
  unfold decideCancelWeigh; (try simp only); (repeat' split) <;> (first | rfl | simp)

@[simp] theorem decideCancelWeigh_pending (x : List Byte) (s : State) : (decideCancelWeigh x s).1.pending = s.pending := by
  unfold decideCancelWeigh; (try simp only); (repeat' split) <;> (first | rfl | simp)

@[simp] theorem decideOpenTable_cab (x : List Byte) (s : State) : (decideOpenTable x s).1.cab = s.cab := by
  unfold decideOpenTable; (try simp only); (repeat' split) <;> rfl

@[simp] theorem decideOpenTable_crane (x : List Byte) (s : State) : (decideOpenTable x s).1.crane = s.crane := by
  unfold decideOpenTable; (try simp only); (repeat' split) <;> rfl

@[simp] theorem decideOpenTable_lau (x : List Byte) (s : State) : (decideOpenTable x s).1.lau = s.lau := by
  unfold decideOpenTable; (try simp only); (repeat' split) <;> rfl

@[simp] theorem decideOpenTable_limiter (x : List Byte) (s : State) : (decideOpenTable x s).1.limiter = s.limiter := by
  unfold decideOpenTable; (try simp only); (repeat' split) <;> rfl

@[simp] theorem decideOpenTable_demand (x : List Byte) (s : State) : (decideOpenTable x s).1.demand = s.demand := by
  unfold decideOpenTable; (try simp only); (repeat' split) <;> rfl

@[simp] theorem decideOpenTable_shaper (x : List Byte) (s : State) : (decideOpenTable x s).1.shaper = s.shaper := by
  unfold decideOpenTable; (try simp only); (repeat' split) <;> rfl

@[simp] theorem decideOpenTable_valve (x : List Byte) (s : State) : (decideOpenTable x s).1.valve = s.valve := by
  unfold decideOpenTable; (try simp only); (repeat' split) <;> rfl

@[simp] theorem decideOpenTable_weigh (x : List Byte) (s : State) : (decideOpenTable x s).1.weigh = s.weigh := by
  unfold decideOpenTable; (try simp only); (repeat' split) <;> rfl

@[simp] theorem decideOpenTable_records (x : List Byte) (s : State) : (decideOpenTable x s).1.records = s.records := by
  unfold decideOpenTable; (try simp only); (repeat' split) <;> rfl

@[simp] theorem decideOpenTable_mgmt (x : List Byte) (s : State) : (decideOpenTable x s).1.mgmt = s.mgmt := by
  unfold decideOpenTable; (try simp only); (repeat' split) <;> rfl

@[simp] theorem decideOpenTable_pending (x : List Byte) (s : State) : (decideOpenTable x s).1.pending = s.pending := by
  unfold decideOpenTable; (try simp only); (repeat' split) <;> rfl

@[simp] theorem decideWriteWords_cab (x : List Byte) (s : State) : (decideWriteWords x s).1.cab = s.cab := by
  unfold decideWriteWords; (try simp only); (repeat' split) <;> rfl

@[simp] theorem decideWriteWords_crane (x : List Byte) (s : State) : (decideWriteWords x s).1.crane = s.crane := by
  unfold decideWriteWords; (try simp only); (repeat' split) <;> rfl

@[simp] theorem decideWriteWords_lau (x : List Byte) (s : State) : (decideWriteWords x s).1.lau = s.lau := by
  unfold decideWriteWords; (try simp only); (repeat' split) <;> rfl

@[simp] theorem decideWriteWords_limiter (x : List Byte) (s : State) : (decideWriteWords x s).1.limiter = s.limiter := by
  unfold decideWriteWords; (try simp only); (repeat' split) <;> rfl

@[simp] theorem decideWriteWords_demand (x : List Byte) (s : State) : (decideWriteWords x s).1.demand = s.demand := by
  unfold decideWriteWords; (try simp only); (repeat' split) <;> rfl

@[simp] theorem decideWriteWords_shaper (x : List Byte) (s : State) : (decideWriteWords x s).1.shaper = s.shaper := by
  unfold decideWriteWords; (try simp only); (repeat' split) <;> rfl

@[simp] theorem decideWriteWords_valve (x : List Byte) (s : State) : (decideWriteWords x s).1.valve = s.valve := by
  unfold decideWriteWords; (try simp only); (repeat' split) <;> rfl

@[simp] theorem decideWriteWords_weigh (x : List Byte) (s : State) : (decideWriteWords x s).1.weigh = s.weigh := by
  unfold decideWriteWords; (try simp only); (repeat' split) <;> rfl

@[simp] theorem decideWriteWords_records (x : List Byte) (s : State) : (decideWriteWords x s).1.records = s.records := by
  unfold decideWriteWords; (try simp only); (repeat' split) <;> rfl

@[simp] theorem decideWriteWords_mgmt (x : List Byte) (s : State) : (decideWriteWords x s).1.mgmt = s.mgmt := by
  unfold decideWriteWords; (try simp only); (repeat' split) <;> rfl

@[simp] theorem decideWriteWords_pending (x : List Byte) (s : State) : (decideWriteWords x s).1.pending = s.pending := by
  unfold decideWriteWords; (try simp only); (repeat' split) <;> rfl

@[simp] theorem decideReadWords_cab (x : List Byte) (s : State) : (decideReadWords x s).1.cab = s.cab := by
  unfold decideReadWords readAtCursor; (try simp only); (repeat' split) <;> rfl

@[simp] theorem decideReadWords_crane (x : List Byte) (s : State) : (decideReadWords x s).1.crane = s.crane := by
  unfold decideReadWords readAtCursor; (try simp only); (repeat' split) <;> rfl

@[simp] theorem decideReadWords_lau (x : List Byte) (s : State) : (decideReadWords x s).1.lau = s.lau := by
  unfold decideReadWords readAtCursor; (try simp only); (repeat' split) <;> rfl

@[simp] theorem decideReadWords_limiter (x : List Byte) (s : State) : (decideReadWords x s).1.limiter = s.limiter := by
  unfold decideReadWords readAtCursor; (try simp only); (repeat' split) <;> rfl

@[simp] theorem decideReadWords_demand (x : List Byte) (s : State) : (decideReadWords x s).1.demand = s.demand := by
  unfold decideReadWords readAtCursor; (try simp only); (repeat' split) <;> rfl

@[simp] theorem decideReadWords_shaper (x : List Byte) (s : State) : (decideReadWords x s).1.shaper = s.shaper := by
  unfold decideReadWords readAtCursor; (try simp only); (repeat' split) <;> rfl

@[simp] theorem decideReadWords_valve (x : List Byte) (s : State) : (decideReadWords x s).1.valve = s.valve := by
  unfold decideReadWords readAtCursor; (try simp only); (repeat' split) <;> rfl

@[simp] theorem decideReadWords_weigh (x : List Byte) (s : State) : (decideReadWords x s).1.weigh = s.weigh := by
  unfold decideReadWords readAtCursor; (try simp only); (repeat' split) <;> rfl

@[simp] theorem decideReadWords_records (x : List Byte) (s : State) : (decideReadWords x s).1.records = s.records := by
  unfold decideReadWords readAtCursor; (try simp only); (repeat' split) <;> rfl

@[simp] theorem decideReadWords_mgmt (x : List Byte) (s : State) : (decideReadWords x s).1.mgmt = s.mgmt := by
  unfold decideReadWords readAtCursor; (try simp only); (repeat' split) <;> rfl

@[simp] theorem decideReadWords_pending (x : List Byte) (s : State) : (decideReadWords x s).1.pending = s.pending := by
  unfold decideReadWords readAtCursor; (try simp only); (repeat' split) <;> rfl

@[simp] theorem decideCommit_cab (x : List Byte) (s : State) : (decideCommit x s).1.cab = s.cab := by
  unfold decideCommit; (repeat' split) <;> (first | rfl | simp)

@[simp] theorem decideCommit_lau (x : List Byte) (s : State) : (decideCommit x s).1.lau = s.lau := by
  unfold decideCommit; (repeat' split) <;> (first | rfl | simp)

@[simp] theorem decideCommit_limiter (x : List Byte) (s : State) : (decideCommit x s).1.limiter = s.limiter := by
  unfold decideCommit; (repeat' split) <;> (first | rfl | simp)

@[simp] theorem decideCommit_shaper (x : List Byte) (s : State) : (decideCommit x s).1.shaper = s.shaper := by
  unfold decideCommit; (repeat' split) <;> (first | rfl | simp)

@[simp] theorem decideCommit_records (x : List Byte) (s : State) : (decideCommit x s).1.records = s.records := by
  unfold decideCommit; (repeat' split) <;> (first | rfl | simp)

@[simp] theorem decideCommit_pending (x : List Byte) (s : State) : (decideCommit x s).1.pending = s.pending := by
  unfold decideCommit; (repeat' split) <;> (first | rfl | simp)

@[simp] theorem decideDiscard_cab (x : List Byte) (s : State) : (decideDiscard x s).1.cab = s.cab := by
  unfold decideDiscard; (repeat' split) <;> rfl

@[simp] theorem decideDiscard_crane (x : List Byte) (s : State) : (decideDiscard x s).1.crane = s.crane := by
  unfold decideDiscard; (repeat' split) <;> rfl

@[simp] theorem decideDiscard_lau (x : List Byte) (s : State) : (decideDiscard x s).1.lau = s.lau := by
  unfold decideDiscard; (repeat' split) <;> rfl

@[simp] theorem decideDiscard_limiter (x : List Byte) (s : State) : (decideDiscard x s).1.limiter = s.limiter := by
  unfold decideDiscard; (repeat' split) <;> rfl

@[simp] theorem decideDiscard_demand (x : List Byte) (s : State) : (decideDiscard x s).1.demand = s.demand := by
  unfold decideDiscard; (repeat' split) <;> rfl

@[simp] theorem decideDiscard_shaper (x : List Byte) (s : State) : (decideDiscard x s).1.shaper = s.shaper := by
  unfold decideDiscard; (repeat' split) <;> rfl

@[simp] theorem decideDiscard_valve (x : List Byte) (s : State) : (decideDiscard x s).1.valve = s.valve := by
  unfold decideDiscard; (repeat' split) <;> rfl

@[simp] theorem decideDiscard_weigh (x : List Byte) (s : State) : (decideDiscard x s).1.weigh = s.weigh := by
  unfold decideDiscard; (repeat' split) <;> rfl

@[simp] theorem decideDiscard_records (x : List Byte) (s : State) : (decideDiscard x s).1.records = s.records := by
  unfold decideDiscard; (repeat' split) <;> rfl

@[simp] theorem decideDiscard_mgmt (x : List Byte) (s : State) : (decideDiscard x s).1.mgmt = s.mgmt := by
  unfold decideDiscard; (repeat' split) <;> rfl

@[simp] theorem decideDiscard_pending (x : List Byte) (s : State) : (decideDiscard x s).1.pending = s.pending := by
  unfold decideDiscard; (repeat' split) <;> rfl

@[simp] theorem decideSetProtection_cab (x : List Byte) (s : State) : (decideSetProtection x s).1.cab = s.cab := by
  unfold decideSetProtection; (try simp only); (repeat' split) <;> rfl

@[simp] theorem decideSetProtection_crane (x : List Byte) (s : State) : (decideSetProtection x s).1.crane = s.crane := by
  unfold decideSetProtection; (try simp only); (repeat' split) <;> rfl

@[simp] theorem decideSetProtection_lau (x : List Byte) (s : State) : (decideSetProtection x s).1.lau = s.lau := by
  unfold decideSetProtection; (try simp only); (repeat' split) <;> rfl

@[simp] theorem decideSetProtection_limiter (x : List Byte) (s : State) : (decideSetProtection x s).1.limiter = s.limiter := by
  unfold decideSetProtection; (try simp only); (repeat' split) <;> rfl

@[simp] theorem decideSetProtection_demand (x : List Byte) (s : State) : (decideSetProtection x s).1.demand = s.demand := by
  unfold decideSetProtection; (try simp only); (repeat' split) <;> rfl

@[simp] theorem decideSetProtection_shaper (x : List Byte) (s : State) : (decideSetProtection x s).1.shaper = s.shaper := by
  unfold decideSetProtection; (try simp only); (repeat' split) <;> rfl

@[simp] theorem decideSetProtection_valve (x : List Byte) (s : State) : (decideSetProtection x s).1.valve = s.valve := by
  unfold decideSetProtection; (try simp only); (repeat' split) <;> rfl

@[simp] theorem decideSetProtection_weigh (x : List Byte) (s : State) : (decideSetProtection x s).1.weigh = s.weigh := by
  unfold decideSetProtection; (try simp only); (repeat' split) <;> rfl

@[simp] theorem decideSetProtection_records (x : List Byte) (s : State) : (decideSetProtection x s).1.records = s.records := by
  unfold decideSetProtection; (try simp only); (repeat' split) <;> rfl

@[simp] theorem decideSetProtection_mgmt (x : List Byte) (s : State) : (decideSetProtection x s).1.mgmt = s.mgmt := by
  unfold decideSetProtection; (try simp only); (repeat' split) <;> rfl

@[simp] theorem decideSetProtection_pending (x : List Byte) (s : State) : (decideSetProtection x s).1.pending = s.pending := by
  unfold decideSetProtection; (try simp only); (repeat' split) <;> rfl

@[simp] theorem decidePersist_cab (x : List Byte) (s : State) : (decidePersist x s).1.cab = s.cab := by
  unfold decidePersist; (repeat' split) <;> rfl

@[simp] theorem decidePersist_crane (x : List Byte) (s : State) : (decidePersist x s).1.crane = s.crane := by
  unfold decidePersist; (repeat' split) <;> rfl

@[simp] theorem decidePersist_lau (x : List Byte) (s : State) : (decidePersist x s).1.lau = s.lau := by
  unfold decidePersist; (repeat' split) <;> rfl

@[simp] theorem decidePersist_limiter (x : List Byte) (s : State) : (decidePersist x s).1.limiter = s.limiter := by
  unfold decidePersist; (repeat' split) <;> rfl

@[simp] theorem decidePersist_demand (x : List Byte) (s : State) : (decidePersist x s).1.demand = s.demand := by
  unfold decidePersist; (repeat' split) <;> rfl

@[simp] theorem decidePersist_shaper (x : List Byte) (s : State) : (decidePersist x s).1.shaper = s.shaper := by
  unfold decidePersist; (repeat' split) <;> rfl

@[simp] theorem decidePersist_valve (x : List Byte) (s : State) : (decidePersist x s).1.valve = s.valve := by
  unfold decidePersist; (repeat' split) <;> rfl

@[simp] theorem decidePersist_weigh (x : List Byte) (s : State) : (decidePersist x s).1.weigh = s.weigh := by
  unfold decidePersist; (repeat' split) <;> rfl

@[simp] theorem decidePersist_records (x : List Byte) (s : State) : (decidePersist x s).1.records = s.records := by
  unfold decidePersist; (repeat' split) <;> rfl

@[simp] theorem decidePersist_mgmt (x : List Byte) (s : State) : (decidePersist x s).1.mgmt = s.mgmt := by
  unfold decidePersist; (repeat' split) <;> rfl

@[simp] theorem decidePersist_pending (x : List Byte) (s : State) : (decidePersist x s).1.pending = s.pending := by
  unfold decidePersist; (repeat' split) <;> rfl

@[simp] theorem decideResetPrepare_cab (x : List Byte) (s : State) : (decideResetPrepare x s).1.cab = s.cab :=
  rfl

@[simp] theorem decideResetPrepare_crane (x : List Byte) (s : State) : (decideResetPrepare x s).1.crane = s.crane :=
  rfl

@[simp] theorem decideResetPrepare_lau (x : List Byte) (s : State) : (decideResetPrepare x s).1.lau = s.lau :=
  rfl

@[simp] theorem decideResetPrepare_limiter (x : List Byte) (s : State) : (decideResetPrepare x s).1.limiter = s.limiter :=
  rfl

@[simp] theorem decideResetPrepare_demand (x : List Byte) (s : State) : (decideResetPrepare x s).1.demand = s.demand :=
  rfl

@[simp] theorem decideResetPrepare_shaper (x : List Byte) (s : State) : (decideResetPrepare x s).1.shaper = s.shaper :=
  rfl

@[simp] theorem decideResetPrepare_valve (x : List Byte) (s : State) : (decideResetPrepare x s).1.valve = s.valve :=
  rfl

@[simp] theorem decideResetPrepare_weigh (x : List Byte) (s : State) : (decideResetPrepare x s).1.weigh = s.weigh :=
  rfl

@[simp] theorem decideResetPrepare_records (x : List Byte) (s : State) : (decideResetPrepare x s).1.records = s.records :=
  rfl

@[simp] theorem decideResetPrepare_tables (x : List Byte) (s : State) : (decideResetPrepare x s).1.tables = s.tables :=
  rfl

@[simp] theorem decideResetPrepare_mgmt (x : List Byte) (s : State) : (decideResetPrepare x s).1.mgmt = s.mgmt :=
  rfl

@[simp] theorem decideResetPrepare_pending (x : List Byte) (s : State) : (decideResetPrepare x s).1.pending = s.pending :=
  rfl

@[simp] theorem decideResetExecute_cab (x : List Byte) (s : State) : (decideResetExecute x s).1.cab = s.cab := by
  unfold decideResetExecute; (repeat' split) <;> rfl

@[simp] theorem decideResetExecute_crane (x : List Byte) (s : State) : (decideResetExecute x s).1.crane = s.crane := by
  unfold decideResetExecute; (repeat' split) <;> rfl

@[simp] theorem decideResetExecute_lau (x : List Byte) (s : State) : (decideResetExecute x s).1.lau = s.lau := by
  unfold decideResetExecute; (repeat' split) <;> rfl

@[simp] theorem decideResetExecute_limiter (x : List Byte) (s : State) : (decideResetExecute x s).1.limiter = s.limiter := by
  unfold decideResetExecute; (repeat' split) <;> rfl

@[simp] theorem decideResetExecute_demand (x : List Byte) (s : State) : (decideResetExecute x s).1.demand = s.demand := by
  unfold decideResetExecute; (repeat' split) <;> rfl

@[simp] theorem decideResetExecute_shaper (x : List Byte) (s : State) : (decideResetExecute x s).1.shaper = s.shaper := by
  unfold decideResetExecute; (repeat' split) <;> rfl

@[simp] theorem decideResetExecute_valve (x : List Byte) (s : State) : (decideResetExecute x s).1.valve = s.valve := by
  unfold decideResetExecute; (repeat' split) <;> rfl

@[simp] theorem decideResetExecute_weigh (x : List Byte) (s : State) : (decideResetExecute x s).1.weigh = s.weigh := by
  unfold decideResetExecute; (repeat' split) <;> rfl

@[simp] theorem decideResetExecute_records (x : List Byte) (s : State) : (decideResetExecute x s).1.records = s.records := by
  unfold decideResetExecute; (repeat' split) <;> rfl

@[simp] theorem decideResetExecute_tables (x : List Byte) (s : State) : (decideResetExecute x s).1.tables = s.tables := by
  unfold decideResetExecute; (repeat' split) <;> rfl

@[simp] theorem decideResetExecute_pending (x : List Byte) (s : State) : (decideResetExecute x s).1.pending = s.pending := by
  unfold decideResetExecute; (repeat' split) <;> rfl

@[simp] theorem decideUnknownRequest_cab (x : List Byte) (s : State) : (decideUnknownRequest x s).1.cab = s.cab :=
  rfl

@[simp] theorem decideUnknownRequest_crane (x : List Byte) (s : State) : (decideUnknownRequest x s).1.crane = s.crane :=
  rfl

@[simp] theorem decideUnknownRequest_lau (x : List Byte) (s : State) : (decideUnknownRequest x s).1.lau = s.lau :=
  rfl

@[simp] theorem decideUnknownRequest_limiter (x : List Byte) (s : State) : (decideUnknownRequest x s).1.limiter = s.limiter :=
  rfl

@[simp] theorem decideUnknownRequest_demand (x : List Byte) (s : State) : (decideUnknownRequest x s).1.demand = s.demand :=
  rfl

@[simp] theorem decideUnknownRequest_shaper (x : List Byte) (s : State) : (decideUnknownRequest x s).1.shaper = s.shaper :=
  rfl

@[simp] theorem decideUnknownRequest_valve (x : List Byte) (s : State) : (decideUnknownRequest x s).1.valve = s.valve :=
  rfl

@[simp] theorem decideUnknownRequest_weigh (x : List Byte) (s : State) : (decideUnknownRequest x s).1.weigh = s.weigh :=
  rfl

@[simp] theorem decideUnknownRequest_records (x : List Byte) (s : State) : (decideUnknownRequest x s).1.records = s.records :=
  rfl

@[simp] theorem decideUnknownRequest_tables (x : List Byte) (s : State) : (decideUnknownRequest x s).1.tables = s.tables :=
  rfl

@[simp] theorem decideUnknownRequest_mgmt (x : List Byte) (s : State) : (decideUnknownRequest x s).1.mgmt = s.mgmt :=
  rfl

@[simp] theorem decideUnknownRequest_pending (x : List Byte) (s : State) : (decideUnknownRequest x s).1.pending = s.pending :=
  rfl

end Sys2Proof.Machine
end

