-- ==== Sys2Proof/Laws/Tables.lean ====
section
/-! SUPPORT. The images of a kind under the operations of the Table Store. -/

namespace Sys2Proof.Machine

/-! ### Words -/

/-- Writing words keeps the length of an image. -/
theorem writeFrom_length (ws : Image) (i : Nat) (xs : List Word) : (writeFrom ws i xs).length = ws.length := by
  induction xs generalizing ws i with
  | nil => rfl
  | cons w xs ih => simp [writeFrom, ih]

/-- Writing words leaves every word outside those written. -/
theorem writeFrom_outside (ws : Image) (i : Nat) (xs : List Word) {j : Nat} (h : j < i ∨ i + xs.length ≤ j) :
    (writeFrom ws i xs)[j]? = ws[j]? := by
  induction xs generalizing ws i with
  | nil => rfl
  | cons w xs ih =>
    simp only [List.length_cons] at h
    rw [writeFrom, ih _ _ (by omega), List.getElem?_set]
    rw [if_neg (by omega)]

/-- Each word written is read back. -/
theorem writeFrom_inside (ws : Image) (i : Nat) (xs : List Word) {m : Nat} (h : m < xs.length) (hw : i + xs.length ≤
    ws.length) :
    (writeFrom ws i xs)[i + m]? = some xs[m] := by
  induction xs generalizing ws i m with
  | nil => simp at h
  | cons w xs ih =>
    simp only [List.length_cons] at h hw
    cases m with
    | zero =>
      rw [writeFrom, writeFrom_outside _ _ _ (by omega), List.getElem?_set]
      simp; omega
    | succ m =>
      have := ih (ws.set i w) (i+1) (m := m) (by omega) (by simp; omega)
      rw [writeFrom]
      rw [show i + (m+1) = i + 1 + m by omega, this]
      rfl

/-- A number lies in a range. -/
theorem inRange_iff (a b n : Nat) : inRange a b n = true ↔ a ≤ n ∧ n ≤ b := by simp [inRange]

/-- The words of a CLEAN shadow are as many as the kind has. -/
theorem cleanWords_length {k : Kind} {a : Option Image} (h : ∀ ws, a = some ws → ws.length = k.words) : (cleanWords k
    a).length = k.words := by
  unfold cleanWords; split
  · exact h _ rfl
  · simp

/-- The words of a stored item that checks (R170). -/
theorem checkedWords_eq_some {n x ws} : checkedWords n x = some ws ↔ ws.length = n ∧ ∃ sum, x = .image ws sum ∧
    sum.toNat = wordSum ws := by
  unfold checkedWords
  split
  · split
    · rename_i ws' sum h
      constructor
      · rintro ⟨⟩; exact ⟨h.1, sum, rfl, h.2.symm⟩
      · rintro ⟨h1, su, h2, h3⟩; cases h2; rfl
    · rename_i ws' sum h
      constructor
      · rintro ⟨⟩
      · rintro ⟨h1, su, h2, h3⟩; cases h2; exact absurd ⟨h1, h3.symm⟩ h
  · simp
  · simp

/-- The words of a stored item that checks are as many as asked. -/
theorem checkedWords_length {n x ws} (h : checkedWords n x = some ws) : ws.length = n := by
  unfold checkedWords at h
  split at h
  · split at h
    · cases h; rename_i hc; exact hc.1
    · cases h
  · cases h
  · cases h

/-! ### The invariant of the tables -/

/-- Making a shadow CLEAN gives the invariant of a kind. -/
theorem KindInv.ofClean {k : Kind} {x : KindTable} (h : ∀ ws, x.active = some ws → ws.length = k.words) : KindInv k
    (x.clean k) :=
  ⟨h, cleanWords_length h, fun _ => rfl⟩

/-- Start-up loading gives the invariant of a kind. -/
theorem KindInv.load (k : Kind) (x : Stored) : KindInv k (loadKind k x) :=
  ⟨fun _ h => checkedWords_length h, cleanWords_length fun _ h => checkedWords_length h, fun _ => rfl⟩

/-- Only the kinds and the cursor matter to the invariant. -/
theorem TableInv.congr {t u : TableStore} (h : TableInv t) (hk : ∀ k, u.kind k = t.kind k) (hc : u.cursorKind =
    t.cursorKind) (hi : u.cursorIndex = t.cursorIndex) : TableInv u :=
  ⟨fun k => by rw [hk]; exact h.kinds k, by rw [hc, hi]; exact h.cursor⟩

/-- New images of a kind keep the invariant. -/
theorem TableInv.setKind {t : TableStore} (h : TableInv t) {k : Kind} {x : KindTable} (hx : KindInv k x) : TableInv
    (t.setKind k x) := by
  refine ⟨fun j => ?_, by simpa using h.cursor⟩
  by_cases hj : j = k
  · subst hj; simpa using hx
  · rw [TableStore.kind_setKind_of_ne _ _ hj]; exact h.kinds j

/-- A new cursor keeps the invariant. -/
theorem TableInv.setCursor {t : TableStore} (h : TableInv t) {k : Kind} {i : Nat} (hi : i ≤ k.words) : TableInv
    { t with cursorKind := k, cursorIndex := i } :=
  ⟨fun j => by cases j <;> exact h.kinds _, hi⟩

/-- The loss of the supply leaves the images (R169). -/
theorem losePersist_kind (t : TableStore) (k : Kind) : t.losePersist.kind k = t.kind k := by
  unfold TableStore.losePersist; split <;> cases k <;> rfl

/-- The loss of the supply leaves the kind of the cursor. -/
theorem losePersist_cursorKind (t : TableStore) : t.losePersist.cursorKind = t.cursorKind := by
  unfold TableStore.losePersist; split <;> rfl

/-- The loss of the supply leaves the index of the cursor. -/
theorem losePersist_cursorIndex (t : TableStore) : t.losePersist.cursorIndex = t.cursorIndex := by
  unfold TableStore.losePersist; split <;> rfl

/-- A soft reset keeps the invariant (R162, R172). -/
theorem TableInv.softReset {t : TableStore} (h : TableInv t) : TableInv t.softReset := by
  refine ⟨fun k => ?_, Nat.zero_le _⟩
  have := KindInv.ofClean (h.kinds k).active
  cases k <;> exact this

/-- Start-up loading gives the invariant (R170). -/
theorem TableInv.loaded (x : Settings) (l : Level) (y : StoreContents) : TableInv (loadedTables x l y) := by
  refine ⟨fun k => ?_, Nat.zero_le _⟩
  cases k <;> exact KindInv.load _ _

/-- An accepted commit keeps the invariant (R159). -/
theorem accept_inv {t : TableStore} (h : TableInv t) (k : Kind) : TableInv (t.accept k) := by
  refine h.setKind ⟨?_, (h.kinds k).shadow, fun _ => rfl⟩
  intro ws hw; cases hw; exact (h.kinds k).shadow

/-- What COMMIT does to the Table Store: nothing, or the acceptance of the named kind. -/
theorem decideCommit_tables (f : List Byte) (u : State) : (decideCommit f u).1.tables = u.tables ∨
   ∃ k, kindOfCode (byteAt f 1).toNat = some k ∧ commitRefusal u.tables k (pairAt f 2) = none ∧ (decideCommit f
       u).1.tables = u.tables.accept k := by
  unfold decideCommit
  split
  · exact .inl rfl
  · split
    · exact .inl rfl
    · rename_i _ k hk _ hc; exact .inr ⟨k, hk, hc, by simp⟩

/-- OPEN_TABLE keeps the invariant (R147). -/
theorem decideOpenTable_inv {f u} (h : TableInv u.tables) : TableInv (decideOpenTable f u).1.tables := by
  unfold decideOpenTable
  split
  · exact h
  · rename_i k hk
    simp only
    split
    · rename_i hlt
      refine (h.setKind ?_).setCursor (Nat.le_of_lt hlt)
      split
      · exact h.kinds k
      · exact KindInv.ofClean (h.kinds k).active
    · exact h

/-- WRITE_WORDS keeps the invariant (R148). -/
theorem decideWriteWords_inv {f u} (h : TableInv u.tables) : TableInv (decideWriteWords f u).1.tables := by
  unfold decideWriteWords
  simp only
  split
  · have hk := h.kinds u.tables.cursorKind
    have hc := h.cursor
    have key : KindInv u.tables.cursorKind { (u.tables.kind u.tables.cursorKind) with
        shadow := writeFrom (u.tables.kind u.tables.cursorKind).shadow u.tables.cursorIndex (frameWords f
            (wordsThatFit u.tables.cursorKind.words u.tables.cursorIndex (byteAt f 1).toNat)),
        dirty := (u.tables.kind u.tables.cursorKind).dirty || wordsThatFit u.tables.cursorKind.words
            u.tables.cursorIndex (byteAt f 1).toNat != 0 } := by
      refine ⟨hk.active, by simp only [writeFrom_length]; exact hk.shadow, ?_⟩
      intro hd
      simp only [Bool.or_eq_false_iff, bne_eq_false_iff_eq] at hd
      rw [hd.2]
      exact hk.clean hd.1
    have := (h.setKind key).setCursor (k := u.tables.cursorKind) (i := u.tables.cursorIndex + wordsThatFit
        u.tables.cursorKind.words u.tables.cursorIndex (byteAt f 1).toNat) (by unfold wordsThatFit; omega)
    refine this.congr (fun k => ?_) ?_ rfl
    · cases k <;> rfl
    · simp
  · exact h

/-- Reading at the cursor keeps the invariant (R149). -/
theorem readAtCursor_inv {ws n u} (h : TableInv u.tables) : TableInv (readAtCursor ws n u).1.tables := by
  unfold readAtCursor
  simp only
  split
  · exact h
  · refine ⟨fun k => by cases k <;> exact h.kinds _, ?_⟩
    simp only [wordsThatFit]; omega

/-- READ_WORDS keeps the invariant (R149). -/
theorem decideReadWords_inv {f u} (h : TableInv u.tables) : TableInv (decideReadWords f u).1.tables := by
  unfold decideReadWords
  simp only
  split
  · exact h
  · split
    · split
      · exact h
      · exact readAtCursor_inv h
    · exact readAtCursor_inv h

/-- DISCARD keeps the invariant (R150). -/
theorem decideDiscard_inv {f u} (h : TableInv u.tables) : TableInv (decideDiscard f u).1.tables := by
  unfold decideDiscard
  split
  · exact h
  · exact h.setKind (KindInv.ofClean (h.kinds _).active)

/-- A new protection setting leaves the images and the cursor (R165). -/
theorem protect_congr {t : TableStore} (m b) : (∀ k, (t.protect m b).kind k = t.kind k) ∧ (t.protect m b).cursorKind =
    t.cursorKind ∧ (t.protect m b).cursorIndex = t.cursorIndex := by
  unfold TableStore.protect
  split <;> exact ⟨fun k => by cases k <;> rfl, rfl, rfl⟩

/-- SET_PROTECTION keeps the invariant (R165). -/
theorem decideSetProtection_inv {f u} (h : TableInv u.tables) : TableInv (decideSetProtection f u).1.tables := by
  unfold decideSetProtection
  simp only
  split
  · exact h
  · split
    · exact h
    · obtain ⟨h1, h2, h3⟩ := @protect_congr u.tables (byteAt f 1).toNat (byteAt f 2)
      exact h.congr h1 h2 h3

/-- PERSIST keeps the invariant (R167). -/
theorem decidePersist_inv {f u} (h : TableInv u.tables) : TableInv (decidePersist f u).1.tables := by
  unfold decidePersist
  split
  · exact h
  · exact h.congr (fun k => by cases k <;> rfl) rfl rfl

/-- The end of an item of a PERSIST keeps the invariant (R168). -/
theorem execPersistItemEnd_inv {x s t} (h : TableInv s.tables) (ht : execPersistItemEnd x s = .next t) : TableInv
    t.tables := by
  obtain ⟨-, rfl⟩ | ⟨-, rfl⟩ := whileRunning_cases ht
  · split
    · exact h
    · simp only
      split
      · exact h.congr (fun k => by cases k <;> rfl) rfl rfl
      · simp only [startCab_tables, raise_tables]
        exact h.congr (fun k => by cases k <;> rfl) rfl rfl
  · exact h

/-- What a soft reset does to the Table Store. -/
theorem softReset_tables (s : State) : (softReset s).tables = s.tables.softReset := by
  unfold softReset; simp only; split <;> simp

/-! ### The active images -/

/-- The active image of every kind is the same. -/
def SameActive (t u : TableStore) : Prop := ∀ k, (u.kind k).active = (t.kind k).active

/-- The same images have the same active images. -/
theorem SameActive.of {t u : TableStore} (h : ∀ k, u.kind k = t.kind k) : SameActive t u := fun k => by rw [h]

/-- New images of a kind with the same active image. -/
theorem SameActive.setKind {t : TableStore} {k : Kind} {x : KindTable} (hx : x.active = (t.kind k).active) :
    SameActive t (t.setKind k x) := by
  intro j
  by_cases hj : j = k
  · subst hj; simpa using hx
  · rw [TableStore.kind_setKind_of_ne _ _ hj]

/-- The active images are the same across two changes. -/
theorem SameActive.trans {t u v : TableStore} (h : SameActive t u) (g : SameActive u v) : SameActive t v := fun k =>
    (g k).trans (h k)

/-- A soft reset leaves the active images (R172). -/
theorem SameActive.softReset (t : TableStore) : SameActive t t.softReset := fun k => by cases k <;> rfl

/-- A store has its own active images. -/
theorem SameActive.refl (t : TableStore) : SameActive t t := fun _ => rfl

/-- OPEN_TABLE leaves the active images. -/
theorem decideOpenTable_sameActive (f u) : SameActive u.tables (decideOpenTable f u).1.tables := by
  unfold decideOpenTable
  split
  · exact SameActive.refl _
  · simp only
    split
    · refine (SameActive.setKind (x := ?_) ?_).trans (v := _) (SameActive.of (fun k => by cases k <;> rfl))
      split <;> rfl
    · exact SameActive.refl _

/-- WRITE_WORDS leaves the active images. -/
theorem decideWriteWords_sameActive (f u) : SameActive u.tables (decideWriteWords f u).1.tables := by
  unfold decideWriteWords
  simp only
  split
  · refine (SameActive.setKind (x := ?_) ?_).trans (v := _) (SameActive.of (fun k => by cases k <;> rfl))
    rfl
  · exact SameActive.refl _

/-- Reading at the cursor leaves the active images. -/
theorem readAtCursor_sameActive (ws n u) : SameActive u.tables (readAtCursor ws n u).1.tables := by
  unfold readAtCursor
  simp only
  split
  · exact SameActive.refl _
  · exact (SameActive.of (fun k => by cases k <;> rfl))

/-- READ_WORDS leaves the active images. -/
theorem decideReadWords_sameActive (f u) : SameActive u.tables (decideReadWords f u).1.tables := by
  unfold decideReadWords
  simp only
  split
  · exact SameActive.refl _
  · split
    · split
      · exact SameActive.refl _
      · exact readAtCursor_sameActive _ _ _
    · exact readAtCursor_sameActive _ _ _

/-- DISCARD leaves the active images. -/
theorem decideDiscard_sameActive (f u) : SameActive u.tables (decideDiscard f u).1.tables := by
  unfold decideDiscard
  split
  · exact SameActive.refl _
  · exact SameActive.setKind rfl

/-- SET_PROTECTION leaves the active images. -/
theorem decideSetProtection_sameActive (f u) : SameActive u.tables (decideSetProtection f u).1.tables := by
  unfold decideSetProtection
  simp only
  split
  · exact SameActive.refl _
  · split
    · exact SameActive.refl _
    · exact SameActive.of (@protect_congr u.tables (byteAt f 1).toNat (byteAt f 2)).1

/-- PERSIST leaves the active images. -/
theorem decidePersist_sameActive (f u) : SameActive u.tables (decidePersist f u).1.tables := by
  unfold decidePersist
  split
  · exact SameActive.refl _
  · exact (SameActive.of (fun k => by cases k <;> rfl))

/-- When the protection lets a kind be committed (R164). -/
theorem protectionAllows_iff (t : TableStore) (k : Kind) : protectionAllows t k = true ↔ (t.protectSet.getLsbD
    (k.code - 1) = true →
        t.held = false ∧ (t.mode = .isOpen ∨ (t.mode = .keyed ∧ t.keyLevel = .closed))) := by
  unfold protectionAllows isProtected
  cases t.protectSet.getLsbD (k.code - 1) <;> cases t.held <;> cases t.mode <;> cases t.keyLevel <;> simp

/-- What a commit that is not refused has passed (R152). -/
theorem commitRefusal_none {t k n} (h : commitRefusal t k n = none) : t.persist = .idle ∧ protectionAllows t k = true
    ∧ wordSum (t.kind k).shadow = n ∧ firstBadWord k (t.kind k).shadow = none := by
  unfold commitRefusal at h
  simp only at h
  split at h
  · cases h
  · split at h
    · cases h
    · split at h
      · cases h
      · split at h
        · cases h
        · simp_all

/-! ### The store at start-up -/

/-- What the store holds of an item once the supply has fallen (R169). -/
theorem supplyFalls_stored_item (s : State) (item) : (supplyFalls s).tables.stored.item item = storedAfterFall s item := by
  unfold storedAfterFall supplyFalls TableStore.losePersist
  cases h : s.tables.persist with
  | idle => simp only [h]
  | writing j x =>
    simp only [h]
    cases item <;> cases j <;> rfl

/-- The images of a kind after start-up loading (R170). -/
theorem loadedTables_kind (se l st) (k : Kind) : (loadedTables se l st).kind k = loadKind k (st.item k.item) := by
    cases k <;> rfl

/-- The mode of a code. -/
theorem protectionMode_eq_some {n m} : protectionMode n = some m ↔ m.code = n := by
  unfold protectionMode; split <;> cases m <;> simp_all [ProtectionMode.code] <;> omega

/-- The settings of a valid record (R171). -/
theorem settingsOfWords_valid {ws : Image} (h0 : fieldAt ws 0 ≤ 2) (h1 : fieldAt ws 1 < 32) (h3 : fieldAt ws 3 < 4096)
    (h4 : -500 ≤ signedFieldAt ws 2) (h5 : signedFieldAt ws 2 ≤ 500) :
   ∃ m, settingsOfWords ws = some
       { mode := m, protectSet := BitVec.ofNat 5 (fieldAt ws 1), tare := signedFieldAt ws 2, mask := BitVec.ofNat 12 (fieldAt ws 3) } ∧ m.code = fieldAt ws 0 := by
  have : ∃ m, protectionMode (fieldAt ws 0) = some m := by
    have : fieldAt ws 0 = 0 ∨ fieldAt ws 0 = 1 ∨ fieldAt ws 0 = 2 := by omega
    rcases this with h | h | h <;> rw [h] <;> exact ⟨_, rfl⟩
  obtain ⟨m, hm⟩ := this
  exact ⟨m, by unfold settingsOfWords; rw [hm]; simp only; rw [if_pos ⟨h1, h3, h4, h5⟩], protectionMode_eq_some.1 hm⟩

/-- A record with a field out of its range gives no settings (R171). -/
theorem settingsOfWords_invalid {ws : Image} (h : ¬ (fieldAt ws 0 ≤ 2 ∧ fieldAt ws 1 < 32 ∧ fieldAt ws 3 < 4096 ∧ -500 ≤
    signedFieldAt ws 2 ∧ signedFieldAt ws 2 ≤ 500)) : settingsOfWords ws = none := by
  unfold settingsOfWords
  split
  · rfl
  · rename_i m hm
    have hm := protectionMode_eq_some.1 hm
    have : fieldAt ws 0 ≤ 2 := by rw [← hm]; cases m <;> decide
    simp only
    rw [if_neg (by tauto)]

end Sys2Proof.Machine
end

