-- ==== Sys2Proof/Laws/Crane.lean ====
section
/-! SUPPORT. The Weigh Unit and the crane state under each operation. -/

namespace Sys2Proof.Machine

/-! ### The Weigh Unit -/

/-- The Weigh Unit by itself: its timers run in their states, the tare offset lies in its range, the attempts within
the retries. -/
structure WeighOk (w : WeighUnit) : Prop where
  settle : w.settleTimer ≠ none ↔ ∃ c, w.phase = .settling c
  window : w.windowTimer ≠ none ↔ ∃ c, w.phase = .sampling c
  tare : -500 ≤ w.tare ∧ w.tare ≤ 500
  attempt : ∀ c, w.phase.cycle? = some c → 1 ≤ c.attempt ∧ c.attempt ≤ c.params.retries + 1

/-- The end of a cycle. -/
theorem WeighOk.endCycle {w : WeighUnit} (h : WeighOk w) (c : LastCause) : WeighOk (w.endCycle c) :=
  ⟨by simp [WeighUnit.endCycle], by simp [WeighUnit.endCycle], h.tare, by simp [WeighUnit.endCycle, WeighPhase.cycle?]⟩

/-- A change between IDLE and ARMED. -/
theorem WeighOk.idle {w : WeighUnit} (h : WeighOk w) (hr : w.phase.running = false) (p : WeighPhase) (hp : p = .idle ∨
    p = .armed) : WeighOk { w with phase := p } := by
  have h1 : w.settleTimer = none := by
    by_contra hc; obtain ⟨c, hc⟩ := h.settle.1 hc; rw [hc] at hr; cases hr
  have h2 : w.windowTimer = none := by
    by_contra hc; obtain ⟨c, hc⟩ := h.window.1 hc; rw [hc] at hr; cases hr
  rcases hp with rfl | rfl <;> exact ⟨by simp [h1], by simp [h2], h.tare, by simp [WeighPhase.cycle?]⟩

/-- Entry to SAMPLING (R117). -/
theorem WeighOk.enterSampling {w : WeighUnit} (h : WeighOk w) {c : Cycle} (hc : 1 ≤ c.attempt ∧ c.attempt ≤
    c.params.retries + 1) (b : Bool) : WeighOk (enterSampling c b w) := by
  refine ⟨by simp [Machine.enterSampling], by simp [Machine.enterSampling], h.tare, ?_⟩
  intro x hx
  cases hx; exact hc

/-- Entry to SETTLING (R115, R122). -/
theorem WeighOk.enterSettling {w : WeighUnit} (h : WeighOk w) {c : Cycle} (hc : 1 ≤ c.attempt ∧ c.attempt ≤
    c.params.retries + 1) : WeighOk (enterSettling c w) := by
  refine ⟨by simp [Machine.enterSettling], by simp [Machine.enterSettling], h.tare, ?_⟩
  intro x hx
  cases hx; exact hc

/-- The start of a cycle (R115). -/
theorem WeighOk.startCycle {w : WeighUnit} (h : WeighOk w) (p s q a b) : WeighOk (startCycle p s q a b w) := by
  unfold Machine.startCycle
  simp only
  split
  · exact h.enterSettling ⟨le_refl _, by simp⟩
  · exact h.enterSampling ⟨le_refl _, by simp⟩ _

/-- A new attempt of the same cycle. -/
theorem WeighOk.sampling {w : WeighUnit} (h : WeighOk w) {c c' : Cycle} (hp : w.phase = .sampling c) (ha : c'.attempt
    = c.attempt) (hq : c'.params = c.params) : WeighOk { w with phase := .sampling c' } := by
  refine ⟨?_, ?_, h.tare, ?_⟩
  · have := h.settle; rw [hp] at this; simpa using this
  · have := h.window; rw [hp] at this; simpa using this
  · intro x hx; cases hx; rw [ha, hq]; exact h.attempt c (by rw [hp]; rfl)

/-- A new previous GRAPPLE. -/
theorem WeighOk.prev {w : WeighUnit} (h : WeighOk w) (g : Option Int) : WeighOk { w with prevGrapple := g } :=
    ⟨h.settle, h.window, h.tare, h.attempt⟩

/-- A piece of work leaves the Weigh Unit in order, and a cycle runs after it only where one may start or one ran
before. -/
def WorkOk (w : WeighUnit) (may : Prop) (r : WeighUnit) : Prop := WeighOk r ∧ (r.phase.running = true → may ∨
    w.phase.running = true)

/-- A weaker condition for a start. -/
theorem WorkOk.mono {w r : WeighUnit} {p q : Prop} (h : WorkOk w p r) (hpq : p → q) : WorkOk w q r := ⟨h.1, fun hr =>
    (h.2 hr).imp_left hpq⟩

/-- The completion of a WEIGH cycle (R123). -/
theorem completeWeigh_ok {w c k u} (h : WeighOk w) : WorkOk w False (completeWeigh c k u w).1 := ⟨h.endCycle _, by
    simp [completeWeigh, WeighUnit.endCycle, WeighPhase.running, WeighPhase.cycle?]⟩

/-- The end of a TARE cycle (R124). -/
theorem completeTare_ok {w m} (h : WeighOk w) : WorkOk w False (completeTare m w).1 := by
  unfold completeTare
  split
  · rename_i hm
    have := h.endCycle .none
    exact ⟨⟨this.settle, this.window, hm, this.attempt⟩, by
        simp [WeighUnit.endCycle, WeighPhase.running, WeighPhase.cycle?]⟩
  · exact ⟨h.endCycle _, by simp [WeighUnit.endCycle, WeighPhase.running, WeighPhase.cycle?]⟩

/-- What follows an unstable or void attempt (R122). -/
theorem afterAttempt_ok {w : WeighUnit} {c : Cycle} {b} (h : WeighOk w) (hr : w.phase.running = true) : WorkOk w False
    (afterAttempt c b w).1 := by
  unfold afterAttempt
  split
  · rename_i hc
    simp only
    split
    · exact ⟨h.enterSettling ⟨by simp, by simpa using hc⟩, fun _ => .inr hr⟩
    · exact ⟨h.enterSampling ⟨by simp, by simpa using hc⟩ _, fun _ => .inr hr⟩
  · split
    · exact completeWeigh_ok h
    · exact ⟨h.endCycle _, fun _ => .inr hr⟩
    · exact ⟨h.endCycle _, fun _ => .inr hr⟩
    · exact ⟨h.endCycle _, fun _ => .inr hr⟩

/-- The expiry of the window timer (R121). -/
theorem endWindow_ok {w : WeighUnit} {c : Cycle} {b} (h : WeighOk w) (hr : w.phase.running = true) : WorkOk w False
    (endWindow c b w).1 := by
  unfold endWindow; split <;> exact afterAttempt_ok h hr

/-- A load result in SAMPLING (R119, R120). -/
theorem takeSample_ok {w : WeighUnit} {c : Cycle} {l r b} (h : WeighOk w) (hp : w.phase = .sampling c) : WorkOk w
    False (takeSample c l r b w).1 := by
  have hr : w.phase.running = true := by rw [hp]; rfl
  have hself : WorkOk w False w := ⟨h, fun hr => .inr hr⟩
  unfold takeSample
  split
  · exact ⟨h.sampling hp rfl rfl, fun _ => .inr hr⟩
  · split
    · exact hself
    · split
      · exact hself
      · split
        · simp only
          split
          · unfold endFullAttempt
            simp only
            split
            · split
              · exact completeWeigh_ok h
              · exact completeTare_ok h
            · exact afterAttempt_ok h hr
          · exact ⟨h.sampling hp rfl rfl, fun _ => .inr hr⟩
        · exact hself

/-- The start of a cycle that may start. -/
theorem startCycle_ok {w : WeighUnit} (h : WeighOk w) {may : Prop} (hm : may) (p s q a b) : WorkOk w may (startCycle p
    s q a b w) := ⟨h.startCycle p s q a b, fun _ => .inl hm⟩

/-- A load result in every weigh state (R107). -/
theorem weighAtResult_ok {s : State} (h : WeighOk s.weigh) (r : LoadResult) : WorkOk s.weigh (s.demand.crane = .active
    ∧ s.tables.wpt.active ≠ none) (weighAtResult r s).1 := by
  have hself : ∀ m, WorkOk s.weigh m s.weigh := fun m => ⟨h, fun hr => .inr hr⟩
  unfold weighAtResult
  simp only
  split
  · rename_i hp
    simp only
    split
    · exact ⟨h.idle (by rw [hp]; rfl) _ (.inr rfl), by simp [WeighPhase.running, WeighPhase.cycle?]⟩
    · exact hself _
  · rename_i hp
    unfold whenArmed
    split
    · exact hself _
    · rename_i ws hws
      simp only
      split
      · exact ⟨h.idle (by rw [hp]; rfl) _ (.inl rfl), by simp [WeighPhase.running, WeighPhase.cycle?]⟩
      · split
        · rename_i hc
          exact startCycle_ok h ⟨hc.2.2.2, by rw [hws]; simp⟩ _ _ _ _ _
        · exact hself _
  · exact hself _
  · rename_i c hp
    obtain ⟨h1, h2⟩ := takeSample_ok (l := roleOutput s .lift) (r := r) (b := scanBusy s) h hp
    exact ⟨h1, fun hr => .inr ((h2 hr).resolve_left id)⟩

/-! ### The invariant in two parts -/

/-- The part of the invariant that does not look at an ACTIVE crane's conditions. -/
structure CraneCore (s : State) : Prop where
  weigh : WeighOk s.weigh
  run : s.weigh.phase.running = true → s.demand.crane = .active ∧ s.tables.wpt.active ≠ none
  timer : s.demand.timer = none ↔ s.demand.owner = none

/-- The conditions of an ACTIVE crane. -/
def ActiveOk (s : State) : Prop := s.demand.crane = .active →
    s.demand.owner ≠ none ∧ s.demand.presence = .closed ∧ s.tables.fmt.active ≠ none ∧
      s.crane.port.mode = .active ∧ s.crane.port.joined = true

/-- The invariant in its two parts. -/
theorem craneInv_iff (s : State) : CraneInv s ↔ ActiveOk s ∧ CraneCore s := by
  constructor
  · intro h
    refine ⟨h.active, ⟨h.settle, h.window, h.tare, fun c hc => (h.cycle c hc).2.2⟩, ?_, h.timer⟩
    intro hr
    obtain ⟨c, hc⟩ := Option.isSome_iff_exists.1 hr
    exact ⟨(h.cycle c hc).1, (h.cycle c hc).2.1⟩
  · rintro ⟨h1, h2, h3, h4⟩
    refine ⟨h1, ?_, h4, h2.settle, h2.window, h2.tare⟩
    intro c hc
    have := h3 (by simp [WeighPhase.running, hc])
    exact ⟨this.1, this.2, h2.attempt c hc⟩

/-- The invariant from its two parts. -/
theorem CraneInv.ofParts {s : State} (h1 : ActiveOk s) (h2 : CraneCore s) : CraneInv s := (craneInv_iff s).2 ⟨h1, h2⟩

/-- The first part of the invariant. -/
theorem CraneInv.core {s : State} (h : CraneInv s) : CraneCore s := ((craneInv_iff s).1 h).2

/-- Nothing that the invariant looks at has been lost. -/
structure CraneSame (s t : State) : Prop where
  crane : t.demand.crane = s.demand.crane
  owner : t.demand.owner = none ↔ s.demand.owner = none
  presence : t.demand.presence = s.demand.presence
  timer : t.demand.timer = none ↔ s.demand.timer = none
  weigh : t.weigh = s.weigh
  fmt : s.tables.fmt.active ≠ none → t.tables.fmt.active ≠ none
  wpt : s.tables.wpt.active ≠ none → t.tables.wpt.active ≠ none
  mode : s.crane.port.mode = .active → t.crane.port.mode = .active
  joined : s.crane.port.joined = true → t.crane.port.joined = true

/-- A change of nothing that the first part looks at. -/
theorem CraneCore.congr {s t : State} (h : CraneCore s) (e : CraneSame s t) : CraneCore t := by
  refine ⟨e.weigh ▸ h.weigh, ?_, e.timer.trans (h.timer.trans e.owner.symm)⟩
  rw [e.weigh, e.crane]
  intro hr; exact ⟨(h.run hr).1, e.wpt (h.run hr).2⟩

/-- A change of nothing that the invariant looks at. -/
theorem CraneInv.congr {s t : State} (h : CraneInv s) (e : CraneSame s t) : CraneInv t := by
  rw [craneInv_iff] at h ⊢
  refine ⟨?_, h.2.congr e⟩
  intro hc
  rw [e.crane] at hc
  obtain ⟨h1, h2, h3, h4, h5⟩ := h.1 hc
  exact ⟨fun hn => h1 (e.owner.1 hn), e.presence.trans h2, e.fmt h3, e.mode h4, e.joined h5⟩

/-- A change outside the Demand Unit, the tables, the Weigh Unit and the Crane Port's record. -/
theorem CraneInv.wrap {s t : State} (h : CraneInv s) (e1 : t.demand = s.demand) (e2 : t.tables = s.tables)
    (e3 : t.weigh = s.weigh) (e4 : t.crane.port = s.crane.port) : CraneInv t :=
  h.congr ⟨by rw [e1], by rw [e1], by rw [e1], by rw [e1], e3, by rw [e2]; exact id, by rw [e2]; exact id, by rw [e4]; exact id, by rw [e4]; exact id⟩

/-- A piece of the Weigh Unit's work. -/
theorem CraneInv.work {s t : State} (h : CraneInv s) (hw : WorkOk s.weigh (s.demand.crane = .active ∧
    s.tables.wpt.active ≠ none) t.weigh)
    (e1 : t.demand = s.demand) (e2 : t.tables = s.tables) (e3 : t.crane.port = s.crane.port) : CraneInv t := by
  rw [craneInv_iff] at h ⊢
  obtain ⟨ha, hw0, hr, ht⟩ := h
  refine ⟨?_, hw.1, ?_, ?_⟩
  · unfold ActiveOk; rw [e1, e2, e3]; exact ha
  · rw [e1, e2]
    intro hx
    rcases hw.2 hx with h1 | h1
    · exact h1
    · exact hr h1
  · rw [e1]; exact ht

/-! ### Operations -/

/-- An abort leaves the Weigh Unit in order. -/
theorem abortCycle_weighOk {s : State} (h : WeighOk s.weigh) (c) : WeighOk (abortCycle c s).weigh := by
  unfold abortCycle; split
  · exact h.endCycle c
  · exact h

/-- A move to a state other than ACTIVE gives the invariant. -/
theorem CraneCore.moveCrane {s : State} (h : CraneCore s) {d : CraneState} (hd : d ≠ .active) : CraneInv (moveCrane d
    s) := by
  have hw : WeighOk (Machine.moveCrane d s).weigh := by
    unfold Machine.moveCrane; simp only
    split
    · exact abortCycle_weighOk (s := { s with demand := { s.demand with crane := d } }) h.weigh _
    · exact h.weigh
  have hc : (Machine.moveCrane d s).demand = { s.demand with crane := d } := by
    unfold Machine.moveCrane; simp only; split <;> simp
  have hn : (Machine.moveCrane d s).weigh.phase.running = false := by
    unfold Machine.moveCrane; simp only
    split
    · have := abortCycle_not_running .craneState { s with demand := { s.demand with crane := d } }
      simp [WeighPhase.running, this]
    · rename_i hx
      by_contra hc
      simp only [Bool.not_eq_false] at hc
      exact hx ⟨(h.run hc).1, hd⟩
  refine CraneInv.ofParts ?_ ⟨hw, ?_, ?_⟩
  · intro hx; rw [hc] at hx; exact absurd hx hd
  · intro hx; rw [hn] at hx; cases hx
  · rw [hc]; exact h.timer

/-- Sending an ACTIVE crane to READY gives the invariant. -/
theorem CraneCore.activeToReady {s : State} (h : CraneCore s) : CraneInv (activeToReady s) := by
  unfold Machine.activeToReady
  split
  · exact h.moveCrane (by simp)
  · rename_i hx
    exact CraneInv.ofParts (fun hc => absurd hc hx) h

/-- What a move of the crane state does to the Demand Unit. -/
theorem moveCrane_demand_eq (d s) : (moveCrane d s).demand = { s.demand with crane := d } := by
  unfold moveCrane; simp only; split <;> simp

/-- What a soft reset does to the Demand Unit. -/
theorem softReset_demand (s : State) : (softReset s).demand = s.demand.softReset := by
    unfold softReset; simp only; split <;> simp

/-- Presence zeroing leaves the Crane Port's record. -/
@[simp] theorem presenceZeroing_crane_port (s : State) : (presenceZeroing s).crane.port = s.crane.port := by
    simp [presenceZeroing]

/-- An accepted FMT leaves the Crane Port's record. -/
@[simp] theorem fmtAccepted_crane_port (s : State) : (fmtAccepted s).crane.port = s.crane.port := by
    simp [fmtAccepted]

/-- An accepted commit leaves the Crane Port's record. -/
@[simp] theorem acceptedBy_crane_port (k : Kind) (s : State) : (acceptedBy k s).crane.port = s.crane.port := by
    cases k <;> simp [acceptedBy]

/-- A soft reset leaves the Crane Port's record (R188). -/
@[simp] theorem softReset_crane_port (s : State) : (softReset s).crane.port = s.crane.port := by
    unfold softReset; simp only; split <;> simp

/-- COMMIT leaves the Crane Port's record. -/
@[simp] theorem decideCommit_crane_port (f : List Byte) (s : State) : (decideCommit f s).1.crane.port = s.crane.port
    := by
  unfold decideCommit; (repeat' split) <;> first | rfl | simp

/-- Serving a request leaves what its decision leaves of the Crane Port's record. -/
theorem serve_crane_port {req : Option Request} {p : Bool} {d : List Byte → State → State × Reply}
    (h : ∀ frame u, (d frame u).1.crane.port = u.crane.port) (s : State) : (serve req p d s).crane.port = s.crane.port
        := by
  unfold serve
  split
  · rfl
  · rename_i frame rest _
    have := h frame { s with cab := { s.cab with requests := rest } }
    simp only
    repeat' split
    all_goals simp [this]

/-- Only a restart and an error can take a Crane Port from ACTIVE or from its bus. -/
theorem exec_crane_port {c : Instr} {s t : State} (h : exec c s = .next t) :
    t.crane.port = s.crane.port ∨ (∃ a b, c = .powerOn a b) ∨ (∃ a b, c = .supplyDip a b) ∨ (∃ a b, c = .canError a b)
        ∨
     ((s.crane.port.mode = .active → t.crane.port.mode = .active) ∧ (s.crane.port.joined = true → t.crane.port.joined
         = true)) := by
  cases c
  case powerOn => exact .inr (.inl ⟨_, _, rfl⟩)
  case supplyDip => exact .inr (.inr (.inl ⟨_, _, rfl⟩))
  case canError => exact .inr (.inr (.inr (.inl ⟨_, _, rfl⟩)))
  case slewTiltFrame =>
    right; right; right; right
    obtain ⟨-, rfl⟩ | ⟨-, rfl⟩ := whileRunning_cases h
    · split
      · simp only; split <;> exact ⟨id, id⟩
      · exact ⟨id, id⟩
    · exact ⟨id, id⟩
  case valveTransmissionEnd =>
    right; right; right; right
    obtain ⟨-, rfl⟩ | ⟨-, rfl⟩ := whileRunning_cases h
    · split
      · rw [startValve_crane_port]; exact ⟨id, id⟩
      · exact ⟨id, id⟩
    · exact ⟨id, id⟩
  case portRecovery id' =>
    right; right; right; right
    obtain ⟨-, rfl⟩ | ⟨-, rfl⟩ := whileRunning_cases h
    · split
      · cases id'
        · simp [recoverPort, startWaiting, setPort]
        · simp [recoverPort, startWaiting, setPort, Port.recover, portOf]
      · exact ⟨id, id⟩
    · exact ⟨id, id⟩
  case recessiveRunWhileOff id' =>
    right; right; right; right
    obtain ⟨-, rfl⟩ | ⟨-, rfl⟩ := whileRunning_cases h
    · simp only
      split
      · split
        · cases id'
          · simp [recoverPort, startWaiting, setPort]
          · simp [recoverPort, startWaiting, setPort, Port.recover, portOf]
        · cases id' <;> exact ⟨id, id⟩
      · exact ⟨id, id⟩
    · exact ⟨id, id⟩
  case portJoin id' =>
    right; right; right; right
    obtain ⟨-, rfl⟩ | ⟨-, rfl⟩ := whileRunning_cases h
    · split
      · exact ⟨id, id⟩
      · cases id'
        · simp [startWaiting, setPort]
        · simp [startWaiting, setPort, portOf]
    · exact ⟨id, id⟩
  case filteredFrame id' _ =>
    right; right; right; right
    obtain ⟨-, rfl⟩ | ⟨-, rfl⟩ := whileRunning_cases h
    · split
      · cases id' <;> exact ⟨id, id⟩
      · exact ⟨id, id⟩
    · exact ⟨id, id⟩
  all_goals
    left
    first
    | (cases h; rfl)
    | (obtain ⟨-, rfl⟩ | ⟨-, rfl⟩ := whileRunning_cases h
       · first
         | exact serve_crane_port (fun _ _ => by simp) s
         | rfl
         | ((try simp only); (repeat' split) <;> simp)
       · rfl)

/-- A restart gives the invariant. -/
theorem restart_craneInv (cause na s) : CraneInv (restart cause na s) := by
  have hs : ∀ x, -500 ≤ (loadSettings x).tare ∧ (loadSettings x).tare ≤ 500 := by
    intro x
    unfold loadSettings
    cases hx : (checkedWords 6 x).bind settingsOfWords with
    | none => simp [Settings.default]
    | some v =>
      simp only [Option.getD_some]
      obtain ⟨ws, _, hw⟩ := Option.bind_eq_some_iff.1 hx
      unfold settingsOfWords at hw
      split at hw
      · cases hw
      · simp only at hw
        split at hw
        · rename_i hc; cases hw; exact ⟨hc.2.2.1, hc.2.2.2⟩
        · cases hw
  refine CraneInv.ofParts (fun h => by cases h)
      ⟨⟨by simp [restart], by simp [restart], hs _, by simp [restart, WeighPhase.cycle?]⟩, by
          simp [restart, WeighPhase.running, WeighPhase.cycle?], by simp [restart]⟩

/-- A soft reset keeps the invariant. -/
theorem softReset_craneInv {s : State} (h : CraneInv s) : CraneInv (softReset s) := by
  have hd : (softReset s).demand = s.demand.softReset := by unfold softReset; simp only; split <;> simp
  have hw : WeighOk (softReset s).weigh ∧ (softReset s).weigh.phase.running = false := by
    have key : ∀ u : State, WeighOk u.weigh → WeighOk (weighSoftReset u).weigh ∧ (weighSoftReset
        u).weigh.phase.running = false := by
      intro u hu
      unfold weighSoftReset
      split
      · refine ⟨abortCycle_weighOk hu _, ?_⟩
        have := abortCycle_not_running .reset u
        simp [WeighPhase.running, this]
      · exact ⟨⟨by simp, by simp, hu.tare, by simp [WeighPhase.cycle?]⟩, rfl⟩
    unfold softReset
    simp only
    split
    · rw [requestValve_weigh]; exact key _ h.core.weigh
    · exact key _ h.core.weigh
  refine CraneInv.ofParts ?_ ⟨hw.1, ?_, ?_⟩
  · intro hx; rw [hd] at hx; cases hx
  · rw [hw.2]; intro hx; cases hx
  · rw [hd]; simp [DemandUnit.softReset]

/-- A start on the Cab Port keeps the invariant. -/
theorem startCab_craneInv {s : State} (h : CraneInv s) : CraneInv (startCab s) := h.wrap (by simp) (by simp) (by simp)
    (by simp)

/-- Serving a request keeps the invariant where its decision does. -/
theorem serve_craneInv {req p d} {s : State} (hs : CraneInv s) (hd : ∀ f u, CraneInv u → CraneInv (d f u).1) :
    CraneInv (serve req p d s) := by
  unfold serve
  split
  · exact hs
  · simp only
    rename_i frame rest _
    have := hd frame { s with cab := { s.cab with requests := rest } } (hs.wrap rfl rfl rfl rfl)
    split
    · split <;> exact this.wrap (by simp) (by simp) (by simp) (by simp)
    · exact hs

/-- WEIGH_NOW and TARE keep the invariant (R114). -/
theorem requestCycle_craneInv {p} {u : State} (h : CraneInv u) : CraneInv (requestCycle p u).1 := by
  unfold requestCycle
  split
  · exact h
  · rename_i ws hws
    split
    · exact h
    · split
      · exact h
      · rename_i h1 h2
        simp only [ne_eq, not_not] at h2
        exact h.work (startCycle_ok h.core.weigh ⟨h2, by rw [hws]; simp⟩ _ _ _ _ _) rfl rfl rfl

/-- An abort keeps the invariant (R125). -/
theorem abortCycle_craneInv {u : State} (h : CraneInv u) (c) : CraneInv (abortCycle c u) := by
  unfold abortCycle
  split
  · exact h.work (t := raise .weighFailed _) ⟨h.core.weigh.endCycle c, fun hr => .inr (by assumption)⟩ (by simp)
        (by simp) (by simp)
  · exact h

/-- CANCEL_WEIGH keeps the invariant (R126). -/
theorem decideCancelWeigh_craneInv {f} {u : State} (h : CraneInv u) : CraneInv (decideCancelWeigh f u).1 := by
  unfold decideCancelWeigh
  simp only
  split
  · exact abortCycle_craneInv h _
  · rename_i hr
    exact h.work ⟨h.core.weigh.idle (by simpa using hr) _ (.inl rfl), by simp [WeighPhase.running, WeighPhase.cycle?]⟩
        rfl rfl rfl

/-- What an owner frame writes keeps the first part of the invariant (R64). -/
theorem ownerFrameWrites_core {src d} {s : State} (h : CraneCore s) : CraneCore (ownerFrameWrites src d s) :=
  ⟨h.weigh, h.run, by simp [ownerFrameWrites]⟩

/-- A new previous WEIGH leaves the rest of the Demand Unit. -/
theorem setWeigh_same (d : DemandUnit) (src b) : (d.setWeigh src b).crane = d.crane ∧ (d.setWeigh src b).owner =
    d.owner ∧ (d.setWeigh src b).presence = d.presence ∧ (d.setWeigh src b).timer = d.timer := by
  cases src <;> exact ⟨rfl, rfl, rfl, rfl⟩

/-- A new previous WEIGH keeps the invariant. -/
theorem CraneInv.setWeigh {s : State} (h : CraneInv s) (src b) : CraneInv { s with demand := s.demand.setWeigh src b }
    := by
  obtain ⟨h1, h2, h3, h4⟩ := setWeigh_same s.demand src b
  exact h.congr ⟨h1, by simp only; rw [h2], h3, by simp only; rw [h4], rfl, id, id, id, id⟩

/-- A rising edge of WEIGH keeps the invariant (R109). -/
theorem weighEdge_craneInv {s : State} (h : CraneInv s) : CraneInv (weighEdge s) := by
  unfold weighEdge
  split
  · exact h
  · rename_i ws hws
    split
    · rename_i hc
      exact h.work (startCycle_ok h.core.weigh ⟨hc.2.2, by rw [hws]; simp⟩ _ _ _ _ _) rfl rfl rfl
    · exact h

/-- When a READY crane becomes ACTIVE (R75). -/
theorem becomesActive_iff (data : List Byte) (s : State) : becomesActive data s = true ↔
   (s.demand.crane = .ready ∧ isNeutral s.tables.fmt.active (axisValues data) = true ∧
          s.demand.presence = .closed ∧ s.tables.fmt.active ≠ none ∧ s.crane.port.mode = .active ∧
          s.crane.port.joined = true) := by
  simp [becomesActive, Port.up, and_assoc, Option.isSome_iff_ne_none]

/-- An owner frame keeps the invariant. -/
theorem ownerFrame_craneInv {src d} {s : State} (h : CraneInv s) : CraneInv (ownerFrame src d s) := by
  have h1 : CraneInv (ownerFrameWrites src d s) := by
    refine CraneInv.ofParts ?_ (ownerFrameWrites_core h.core)
    intro hc
    obtain ⟨_, g⟩ := h.active hc
    exact ⟨by simp [ownerFrameWrites], g⟩
  have h2 : CraneInv (if becomesActive d s then
      { ownerFrameWrites src d s with demand := { (ownerFrameWrites src d s).demand with crane := .active } } else
          ownerFrameWrites src d s) := by
    split
    · rename_i hb
      obtain ⟨g1, g2, g3, g4, g5, g6⟩ := (becomesActive_iff _ _).1 hb
      refine CraneInv.ofParts ?_ ⟨h1.core.weigh, ?_, h1.core.timer⟩
      · intro _; exact ⟨by simp [ownerFrameWrites], g3, g4, g5, g6⟩
      · intro hr; exact ⟨rfl, (h1.core.run hr).2⟩
    · exact h1
  unfold ownerFrame
  simp only
  have h3 := h2.setWeigh src (weighBit d)
  split
  · exact weighEdge_craneInv h3
  · exact h3

/-- A granted take keeps the invariant (R66). -/
theorem grantTake_craneInv {src d} {s : State} (h : CraneInv s) : CraneInv (grantTake src d s) := by
  unfold grantTake
  simp only
  have h1 : CraneInv (activeToReady s) := h.core.activeToReady
  have hn := activeToReady_not_active s
  have h2 : CraneInv (raise .owner (activeToReady s)) := h1.wrap rfl rfl rfl rfl
  have h3 := h2.setWeigh src (weighBit d)
  refine CraneInv.ofParts ?_ (ownerFrameWrites_core h3.core)
  intro hc
  exfalso
  apply hn
  cases src <;> exact hc

/-- A demand frame keeps the invariant. -/
theorem takeDemandFrame_craneInv {src d} {s : State} (h : CraneInv s) : CraneInv (takeDemandFrame src d s) := by
  unfold takeDemandFrame
  split
  · exact ownerFrame_craneInv h
  · split
    · exact grantTake_craneInv h
    · exact h

/-- An accepted FMT keeps the invariant (R79). -/
theorem fmtAccepted_craneInv {s : State} (h : CraneInv s) : CraneInv (fmtAccepted s) := by
  unfold fmtAccepted
  simp only
  have h1 : CraneInv (activeToReady { s with demand := { s.demand with targets := Six.same 0 } }) :=
    (CraneCore.activeToReady ⟨h.core.weigh, h.core.run, h.core.timer⟩)
  have h2 := h1.work (t :=
      { (activeToReady { s with demand := { s.demand with targets := Six.same 0 } }) with weigh := { (activeToReady { s with demand := { s.demand with targets := Six.same 0 } }).weigh with prevGrapple := none } }) ⟨h1.core.weigh.prev none, fun hr => .inr hr⟩ rfl rfl rfl
  exact h2.wrap (by simp) (by simp) (by simp) (by simp [restartRefresh])

/-- An accepted WPT keeps the invariant (R125). -/
theorem wptAccepted_craneInv {s : State} (h : CraneInv s) : CraneInv (wptAccepted s) := by
  unfold wptAccepted
  split
  · rename_i hp
    exact h.work ⟨h.core.weigh.idle (by rw [hp]; rfl) _ (.inl rfl), by simp [WeighPhase.running, WeighPhase.cycle?]⟩
        rfl rfl rfl
  · exact abortCycle_craneInv h _

/-- COMMIT keeps the invariant. -/
theorem decideCommit_craneInv {f} {u : State} (h : CraneInv u) : CraneInv (decideCommit f u).1 := by
  unfold decideCommit
  split
  · exact h
  · rename_i k _
    split
    · exact h
    · have h1 : CraneInv { u with tables := u.tables.accept k } := by
        have hk : ∀ j, (u.tables.kind j).active ≠ none → ((u.tables.accept k).kind j).active ≠ none := by
          intro j hj
          unfold TableStore.accept
          by_cases hjk : j = k
          · subst hjk; simp
          · rw [TableStore.kind_setKind_of_ne _ _ hjk]; exact hj
        exact h.congr ⟨rfl, Iff.rfl, rfl, Iff.rfl, rfl, hk .fmt, hk .wpt, id, id⟩
      simp only
      cases k
      · exact fmtAccepted_craneInv h1
      · exact abortCycle_craneInv h1 _
      · exact abortCycle_craneInv h1 _
      · exact h1
      · exact wptAccepted_craneInv h1

/-- An error on a CAN port keeps the invariant (R78). -/
theorem execCanError_craneInv {id role} {s t : State} (h : CraneInv s) (ht : execCanError id role s = .next t) : CraneInv t
    := by
  obtain ⟨-, rfl⟩ | ⟨-, rfl⟩ := whileRunning_cases ht <;> [skip; exact h]
  split <;> [skip; exact h]
  simp only
  have hset : CraneInv (setPort s id ((portOf s id).withError role)) := by
    refine h.congr ⟨by simp, by simp, by simp, by simp, by simp, by simp, by simp, ?_, ?_⟩
    · cases id <;> cases role <;> exact id
    · cases id <;> cases role <;> exact id
  split
  · refine startCab_craneInv ?_
    generalize (setPort s id ((portOf s id).withError role)) = u at *
    unfold busOff
    cases id
    · refine CraneInv.wrap (s := u) hset ?_ ?_ ?_ ?_
      all_goals (simp only [raise_demand, raise_tables, raise_weigh, raise_crane, dropCabFlight]; split <;> rfl)
    · refine CraneInv.wrap (s := activeToReady (dropCraneFlight (setPort u .crane (portOf u .crane).goOff))) ?_ rfl
          rfl rfl rfl
      refine CraneCore.activeToReady ⟨?_, ?_, ?_⟩
      · simpa using hset.core.weigh
      · simpa using hset.core.run
      · simpa using hset.core.timer
  · exact hset

/-- A load result at the Weigh Unit keeps the invariant. -/
theorem weighTakes_craneInv {s : State} (h : CraneInv s) (r : LoadResult) : CraneInv (weighTakes r s) := by
  refine h.work ?_ (by simp) (by simp) (by simp)
  unfold weighTakes
  rw [weighWorks_weigh]
  have hw := weighAtResult_ok h.core.weigh r
  exact ⟨hw.1.prev _, hw.2⟩

end Sys2Proof.Machine
end

