-- ==== Sys2Proof/Laws/ExecFrames.lean ====
section
/-! SUPPORT. Which commands can change the load result, the Limiter, the Record Unit, the Table Store, the Section Shaper,
the Demand Unit and the Weigh Unit: every other command leaves them as they were. -/

namespace Sys2Proof.Machine

/-- The commands that can change the latest load result. -/
theorem exec_lau {c : Instr} {s t : State} (h : exec c s = .next t) :
    t.lau = s.lau ∨
      (∃ a b, c = .powerOn a b) ∨ (∃ a b, c = .supplyDip a b) ∨ c = .softReset ∨ (∃ a, c = .scanCompletion a) ∨ c = .responseTransmissionEnd := by
  cases c
  case powerOn => exact .inr (.inl ⟨_, _, rfl⟩)
  case supplyDip => exact .inr (.inr (.inl ⟨_, _, rfl⟩))
  case softReset => exact .inr (.inr (.inr (.inl rfl)))
  case scanCompletion => exact .inr (.inr (.inr (.inr (.inl ⟨_, rfl⟩))))
  case responseTransmissionEnd => exact .inr (.inr (.inr (.inr (.inr (rfl)))))
  all_goals
    left
    first
    | (cases h; rfl)
    | (obtain ⟨-, rfl⟩ | ⟨-, rfl⟩ := whileRunning_cases h
       · first
         | exact serve_lau (fun _ _ => by simp) s
         | rfl
         | ((try simp only); (repeat' split) <;> simp)
       · rfl)

/-- The commands that can change the Limiter's record. -/
theorem exec_limiter {c : Instr} {s t : State} (h : exec c s = .next t) :
    t.limiter = s.limiter ∨
      (∃ a b, c = .powerOn a b) ∨ (∃ a b, c = .supplyDip a b) ∨ c = .softReset ∨ (∃ a, c = .scanCompletion a) ∨ c = .responseTransmissionEnd := by
  cases c
  case powerOn => exact .inr (.inl ⟨_, _, rfl⟩)
  case supplyDip => exact .inr (.inr (.inl ⟨_, _, rfl⟩))
  case softReset => exact .inr (.inr (.inr (.inl rfl)))
  case scanCompletion => exact .inr (.inr (.inr (.inr (.inl ⟨_, rfl⟩))))
  case responseTransmissionEnd => exact .inr (.inr (.inr (.inr (.inr (rfl)))))
  all_goals
    left
    first
    | (cases h; rfl)
    | (obtain ⟨-, rfl⟩ | ⟨-, rfl⟩ := whileRunning_cases h
       · first
         | exact serve_limiter (fun _ _ => by simp) s
         | rfl
         | ((try simp only); (repeat' split) <;> simp)
       · rfl)

/-- The commands that can change the Record Unit. -/
theorem exec_records {c : Instr} {s t : State} (h : exec c s = .next t) :
    t.records = s.records ∨
      (∃ a b, c = .powerOn a b) ∨ (∃ a b, c = .supplyDip a b) ∨ (∃ a, c = .scanCompletion a) ∨ c = .windowTimerExpiry ∨ c = .selectAssortment ∨ c = .openLoad ∨ c = .closeLoad ∨ c = .ackRecords := by
  cases c
  case powerOn => exact .inr (.inl ⟨_, _, rfl⟩)
  case supplyDip => exact .inr (.inr (.inl ⟨_, _, rfl⟩))
  case scanCompletion => exact .inr (.inr (.inr (.inl ⟨_, rfl⟩)))
  case windowTimerExpiry => exact .inr (.inr (.inr (.inr (.inl rfl))))
  case selectAssortment => exact .inr (.inr (.inr (.inr (.inr (.inl rfl)))))
  case openLoad => exact .inr (.inr (.inr (.inr (.inr (.inr (.inl rfl))))))
  case closeLoad => exact .inr (.inr (.inr (.inr (.inr (.inr (.inr (.inl rfl)))))))
  case ackRecords => exact .inr (.inr (.inr (.inr (.inr (.inr (.inr (.inr (rfl))))))))
  all_goals
    left
    first
    | (cases h; rfl)
    | (obtain ⟨-, rfl⟩ | ⟨-, rfl⟩ := whileRunning_cases h
       · first
         | exact serve_records (fun _ _ => by simp) s
         | rfl
         | ((try simp only); (repeat' split) <;> simp)
       · rfl)

/-- The commands that can change the Table Store. -/
theorem exec_tables {c : Instr} {s t : State} (h : exec c s = .next t) :
    t.tables = s.tables ∨
      (∃ a b, c = .powerOn a b) ∨ (∃ a b, c = .supplyDip a b) ∨ c = .softReset ∨ c = .serviceKeyLineChange ∨ c = .keyLevelChange ∨ c = .openTable ∨ c = .writeWords ∨ c = .readWords ∨ c = .commit ∨ c = .discard ∨ c = .setProtection ∨ c = .persist ∨ (∃ a, c = .persistItemEnd a) ∨ c = .responseTransmissionEnd ∨ c = .supplyFallsBelowDipThreshold := by
  cases c
  case powerOn => exact .inr (.inl ⟨_, _, rfl⟩)
  case supplyDip => exact .inr (.inr (.inl ⟨_, _, rfl⟩))
  case softReset => exact .inr (.inr (.inr (.inl rfl)))
  case serviceKeyLineChange => exact .inr (.inr (.inr (.inr (.inl rfl))))
  case keyLevelChange => exact .inr (.inr (.inr (.inr (.inr (.inl rfl)))))
  case openTable => exact .inr (.inr (.inr (.inr (.inr (.inr (.inl rfl))))))
  case writeWords => exact .inr (.inr (.inr (.inr (.inr (.inr (.inr (.inl rfl)))))))
  case readWords => exact .inr (.inr (.inr (.inr (.inr (.inr (.inr (.inr (.inl rfl))))))))
  case commit => exact .inr (.inr (.inr (.inr (.inr (.inr (.inr (.inr (.inr (.inl rfl)))))))))
  case discard => exact .inr (.inr (.inr (.inr (.inr (.inr (.inr (.inr (.inr (.inr (.inl rfl))))))))))
  case setProtection => exact .inr (.inr (.inr (.inr (.inr (.inr (.inr (.inr (.inr (.inr (.inr (.inl rfl)))))))))))
  case persist => exact .inr (.inr (.inr (.inr (.inr (.inr (.inr (.inr (.inr (.inr (.inr (.inr (.inl rfl))))))))))))
  case persistItemEnd => exact .inr (.inr (.inr (.inr (.inr (.inr (.inr (.inr (.inr (.inr (.inr (.inr (.inr (.inl ⟨_, rfl⟩)))))))))))))
  case responseTransmissionEnd => exact .inr (.inr (.inr (.inr (.inr (.inr (.inr (.inr (.inr (.inr (.inr (.inr (.inr (.inr (.inl rfl))))))))))))))
  case supplyFallsBelowDipThreshold => exact .inr (.inr (.inr (.inr (.inr (.inr (.inr (.inr (.inr (.inr (.inr (.inr (.inr (.inr (.inr (rfl)))))))))))))))
  all_goals
    left
    first
    | (cases h; rfl)
    | (obtain ⟨-, rfl⟩ | ⟨-, rfl⟩ := whileRunning_cases h
       · first
         | exact serve_tables (fun _ _ => by simp) s
         | rfl
         | ((try simp only); (repeat' split) <;> simp)
       · rfl)

/-- The commands that can change the Section Shaper. -/
theorem exec_shaper {c : Instr} {s t : State} (h : exec c s = .next t) :
    t.shaper = s.shaper ∨
      (∃ a b, c = .powerOn a b) ∨ (∃ a b, c = .supplyDip a b) ∨ c = .softReset ∨ c = .presenceOpens ∨ c = .shaperStep ∨ c = .responseTransmissionEnd := by
  cases c
  case powerOn => exact .inr (.inl ⟨_, _, rfl⟩)
  case supplyDip => exact .inr (.inr (.inl ⟨_, _, rfl⟩))
  case softReset => exact .inr (.inr (.inr (.inl rfl)))
  case presenceOpens => exact .inr (.inr (.inr (.inr (.inl rfl))))
  case shaperStep => exact .inr (.inr (.inr (.inr (.inr (.inl rfl)))))
  case responseTransmissionEnd => exact .inr (.inr (.inr (.inr (.inr (.inr (rfl))))))
  all_goals
    left
    first
    | (cases h; rfl)
    | (obtain ⟨-, rfl⟩ | ⟨-, rfl⟩ := whileRunning_cases h
       · first
         | exact serve_shaper (fun _ _ => by simp) s
         | rfl
         | ((try simp only); (repeat' split) <;> simp)
       · rfl)

/-- The commands that can change the Demand Unit. -/
theorem exec_demand {c : Instr} {s t : State} (h : exec c s = .next t) :
    t.demand = s.demand ∨
      (∃ a b, c = .powerOn a b) ∨ (∃ a b, c = .supplyDip a b) ∨ c = .softReset ∨ (∃ a b, c = .demandFrame a b) ∨ c = .demandTimerExpiry ∨ c = .presenceLineChange ∨ c = .presenceOpens ∨ c = .presenceCloses ∨ c = .deploy ∨ c = .stow ∨ c = .commit ∨ c = .responseTransmissionEnd ∨ (∃ a b, c = .canError a b) := by
  cases c
  case powerOn => exact .inr (.inl ⟨_, _, rfl⟩)
  case supplyDip => exact .inr (.inr (.inl ⟨_, _, rfl⟩))
  case softReset => exact .inr (.inr (.inr (.inl rfl)))
  case demandFrame => exact .inr (.inr (.inr (.inr (.inl ⟨_, _, rfl⟩))))
  case demandTimerExpiry => exact .inr (.inr (.inr (.inr (.inr (.inl rfl)))))
  case presenceLineChange => exact .inr (.inr (.inr (.inr (.inr (.inr (.inl rfl))))))
  case presenceOpens => exact .inr (.inr (.inr (.inr (.inr (.inr (.inr (.inl rfl)))))))
  case presenceCloses => exact .inr (.inr (.inr (.inr (.inr (.inr (.inr (.inr (.inl rfl))))))))
  case deploy => exact .inr (.inr (.inr (.inr (.inr (.inr (.inr (.inr (.inr (.inl rfl)))))))))
  case stow => exact .inr (.inr (.inr (.inr (.inr (.inr (.inr (.inr (.inr (.inr (.inl rfl))))))))))
  case commit => exact .inr (.inr (.inr (.inr (.inr (.inr (.inr (.inr (.inr (.inr (.inr (.inl rfl)))))))))))
  case responseTransmissionEnd => exact .inr (.inr (.inr (.inr (.inr (.inr (.inr (.inr (.inr (.inr (.inr (.inr (.inl rfl))))))))))))
  case canError => exact .inr (.inr (.inr (.inr (.inr (.inr (.inr (.inr (.inr (.inr (.inr (.inr (.inr (⟨_, _, rfl⟩)))))))))))))
  all_goals
    left
    first
    | (cases h; rfl)
    | (obtain ⟨-, rfl⟩ | ⟨-, rfl⟩ := whileRunning_cases h
       · first
         | exact serve_demand (fun _ _ => by simp) s
         | rfl
         | ((try simp only); (repeat' split) <;> simp)
       · rfl)

/-- The commands that can change the Weigh Unit. -/
theorem exec_weigh {c : Instr} {s t : State} (h : exec c s = .next t) :
    t.weigh = s.weigh ∨
      (∃ a b, c = .powerOn a b) ∨ (∃ a b, c = .supplyDip a b) ∨ c = .softReset ∨ (∃ a, c = .scanCompletion a) ∨ (∃ a b, c = .demandFrame a b) ∨ c = .demandTimerExpiry ∨ c = .presenceOpens ∨ c = .settleTimerExpiry ∨ c = .windowTimerExpiry ∨ c = .deploy ∨ c = .stow ∨ c = .weighNow ∨ c = .tare ∨ c = .cancelWeigh ∨ c = .commit ∨ c = .responseTransmissionEnd ∨ (∃ a b, c = .canError a b) := by
  cases c
  case powerOn => exact .inr (.inl ⟨_, _, rfl⟩)
  case supplyDip => exact .inr (.inr (.inl ⟨_, _, rfl⟩))
  case softReset => exact .inr (.inr (.inr (.inl rfl)))
  case scanCompletion => exact .inr (.inr (.inr (.inr (.inl ⟨_, rfl⟩))))
  case demandFrame => exact .inr (.inr (.inr (.inr (.inr (.inl ⟨_, _, rfl⟩)))))
  case demandTimerExpiry => exact .inr (.inr (.inr (.inr (.inr (.inr (.inl rfl))))))
  case presenceOpens => exact .inr (.inr (.inr (.inr (.inr (.inr (.inr (.inl rfl)))))))
  case settleTimerExpiry => exact .inr (.inr (.inr (.inr (.inr (.inr (.inr (.inr (.inl rfl))))))))
  case windowTimerExpiry => exact .inr (.inr (.inr (.inr (.inr (.inr (.inr (.inr (.inr (.inl rfl)))))))))
  case deploy => exact .inr (.inr (.inr (.inr (.inr (.inr (.inr (.inr (.inr (.inr (.inl rfl))))))))))
  case stow => exact .inr (.inr (.inr (.inr (.inr (.inr (.inr (.inr (.inr (.inr (.inr (.inl rfl)))))))))))
  case weighNow => exact .inr (.inr (.inr (.inr (.inr (.inr (.inr (.inr (.inr (.inr (.inr (.inr (.inl rfl))))))))))))
  case tare => exact .inr (.inr (.inr (.inr (.inr (.inr (.inr (.inr (.inr (.inr (.inr (.inr (.inr (.inl rfl)))))))))))))
  case cancelWeigh => exact .inr (.inr (.inr (.inr (.inr (.inr (.inr (.inr (.inr (.inr (.inr (.inr (.inr (.inr (.inl rfl))))))))))))))
  case commit => exact .inr (.inr (.inr (.inr (.inr (.inr (.inr (.inr (.inr (.inr (.inr (.inr (.inr (.inr (.inr (.inl rfl)))))))))))))))
  case responseTransmissionEnd => exact .inr (.inr (.inr (.inr (.inr (.inr (.inr (.inr (.inr (.inr (.inr (.inr (.inr (.inr (.inr (.inr (.inl rfl))))))))))))))))
  case canError => exact .inr (.inr (.inr (.inr (.inr (.inr (.inr (.inr (.inr (.inr (.inr (.inr (.inr (.inr (.inr (.inr (.inr (⟨_, _, rfl⟩)))))))))))))))))
  all_goals
    left
    first
    | (cases h; rfl)
    | (obtain ⟨-, rfl⟩ | ⟨-, rfl⟩ := whileRunning_cases h
       · first
         | exact serve_weigh (fun _ _ => by simp) s
         | rfl
         | ((try simp only); (repeat' split) <;> simp)
       · rfl)

/-- The commands that can change the queue of waiting commands. -/
theorem exec_pending {c : Instr} {s t : State} (h : exec c s = .next t) :
    t.pending = s.pending := by
  cases c
  all_goals
    first
    | (cases h; rfl)
    | (obtain ⟨-, rfl⟩ | ⟨-, rfl⟩ := whileRunning_cases h
       · first
         | exact serve_pending (fun _ _ => by simp) s
         | rfl
         | ((try simp only); (repeat' split) <;> simp)
       · rfl)

end Sys2Proof.Machine
end

