-- ==== Sys2Proof/Laws/Layouts.lean ====
section
/-! SUPPORT. What the readers of table images give: the fields of an axis record and of the weigh parameters, and the
axis that drives a section or carries a role. -/

namespace Sys2Proof.Machine

/-- The axis record of an axis, word by word. -/
theorem fmtAxis_fields (ws : Image) (i : Fin 6) : FmtFields ws i (fmtAxis ws i) := by
  have low (x : Nat) : (byteOf x).toNat = x % 256 := by simp [byteOf]
  have word (k : Nat) : (ws.getD (axisIndex i k) 0).toNat = fieldAt ws (1 + 9 * i.val + k) := rfl
  constructor
  case drives =>
    intro k hk
    have hk' : (ws.getD (axisIndex i 0) 0).toNat = k.val := by rw [word]; simpa using hk
    have h6 : (ws.getD (axisIndex i 0) 0).toNat < 6 := by omega
    simp only [fmtAxis, sectionNamed, dif_pos h6, Option.some.injEq]
    exact Fin.ext hk'
  case drivesNone =>
    intro h
    have h' : (ws.getD (axisIndex i 0) 0).toNat = 65535 := by rw [word]; simpa using h
    simp only [fmtAxis, sectionNamed, dif_neg (show ¬ (ws.getD (axisIndex i 0) 0).toNat < 6 by omega), if_pos h']
  case senseNormal => intro h; simp only [fmtAxis, senseNamed, word, h, if_true]
  case senseInverted => intro h; simp only [fmtAxis, senseNamed, word, h]; rfl
  case roleNone => intro h; simp only [fmtAxis, roleNamed, word, h, if_true]
  case roleLift => intro h; simp only [fmtAxis, roleNamed, word, h]; rfl
  case roleGrapple => intro h; simp only [fmtAxis, roleNamed, word, h]; rfl
  case plusNone | plusRaises | plusLowers =>
    intro h
    simp only [fmtAxis, effectNamed, axisIndex, low, h]
    rfl
  case minusNone | minusRaises | minusLowers =>
    intro h
    simp only [fmtAxis, effectNamed, axisIndex, h]
    rfl
  all_goals rfl

/-- The weigh parameters of an image, word by word. -/
theorem wptParams_fields (ws : Image) : WptFields ws (wptParams ws) := by
  have word (k : Nat) : (ws.getD k 0).toNat = fieldAt ws k := rfl
  constructor <;> first | rfl | (intro h; simp only [wptParams, word, h]; rfl)

/-- There is an axis among the candidates exactly when there is a candidate. -/
theorem onlyAxis_eq_none (ws : Image) (salt : Nat) (cs : List (Fin 6)) : onlyAxis ws salt cs = none ↔ cs = [] := by
  unfold onlyAxis
  split <;> simp

/-- Every axis is one of the six. -/
theorem mem_allAxes (i : Fin 6) : i ∈ allAxes := by
  fin_cases i <;> simp [allAxes]

/-- The one axis that has a property is the only candidate. -/
theorem allAxes_filter_unique (p : Fin 6 → Bool) (i : Fin 6) (h : p i = true) (hu : ∀ j, p j = true → j = i) :
    allAxes.filter p = [i] := by
  have hp : p = fun j => decide (j = i) := by
    funext j
    by_cases hj : j = i
    · subst hj; simpa using h
    · simp only [hj, decide_false]
      exact Bool.eq_false_iff.2 fun h' => hj (hu j h')
  rw [hp]
  fin_cases i <;> rfl

/-- A section has no axis exactly when no axis record names it. -/
theorem axisOfSection_eq_none (ws : Image) (k : Fin 6) :
    axisOfSection ws k = none ↔ ∀ i, (fmtAxis ws i).drives ≠ some k := by
  simp [axisOfSection, onlyAxis_eq_none, List.filter_eq_nil_iff, mem_allAxes]

/-- The axis of a section that one axis record names. -/
theorem axisOfSection_of_unique {ws : Image} {k i : Fin 6} (h : (fmtAxis ws i).drives = some k)
    (hu : ∀ j, (fmtAxis ws j).drives = some k → j = i) : axisOfSection ws k = some i := by
  rw [axisOfSection, allAxes_filter_unique _ i (by simpa using h) (by simpa using hu)]
  rfl

/-- The axis record that drives a section. -/
theorem sectionRouting : SectionRouting where
  emptyMap _ := rfl
  unmapped ws k := by simp [sectionAxis, axisOfSection_eq_none]
  mapped ws k i h hu := by simp [sectionAxis, axisOfSection_of_unique h hu]

/-- No axis has a role exactly when no axis record carries it. -/
theorem axisOfRole_eq_none (ws : Image) (role : Role) :
    axisOfRole ws role = none ↔ ∀ i, (fmtAxis ws i).role ≠ role := by
  simp [axisOfRole, onlyAxis_eq_none, List.filter_eq_nil_iff, mem_allAxes]

/-- The axis of a role that one axis record carries. -/
theorem axisOfRole_of_unique {ws : Image} {role : Role} {i : Fin 6} (h : (fmtAxis ws i).role = role)
    (hu : ∀ j, (fmtAxis ws j).role = role → j = i) : axisOfRole ws role = some i := by
  rw [axisOfRole, allAxes_filter_unique _ i (by simpa using h) (by simpa using hu)]
  rfl

/-- What a completing WEIGH cycle hands over, field by field. -/
theorem weighedOf_handedOver (c : Cycle) (k : Kept) (unstable : Bool) (tare : Int) :
    HandedOver c k unstable tare (weighedOf c k unstable tare) where
  assortment := rfl
  mass h := by
    simp only [weighedOf, massOf]
    omega
  massClamped h := by
    simp only [weighedOf, massOf]
    omega
  reach := rfl
  sector := rfl
  uPeak := rfl
  samples := rfl
  attempts := rfl
  unstable := rfl
  clamped := by simp [weighedOf]
  staleSlew := rfl
  manual := by simp [weighedOf]

end Sys2Proof.Machine
end

