-- ==== Sys2Proof/Laws/Limiter.lean ====
section
/-! SUPPORT. What the threshold tables of the Limiter give. -/

namespace Sys2Proof.Machine

/-- The row of U, case by case; where the rows of LIMIT and CLEAR both hold, it is one of the two (R50 to R52). -/
theorem limiterRow_cases (rct : Image) (limitFrom u : Nat) :
    (limitFrom ≤ u → rctWarnAt rct ≤ u → limiterRow rct limitFrom u = .limit) ∧
    (limitFrom ≤ u → u < rctWarnAt rct → limiterRow rct limitFrom u = .limit ∨ limiterRow rct limitFrom u = .clear) ∧
    (u < limitFrom → rctWarnAt rct ≤ u → limiterRow rct limitFrom u = .warn) ∧
    (u < limitFrom → u < rctWarnAt rct → limiterRow rct limitFrom u = .clear) := by
  unfold limiterRow
  refine ⟨fun h h' => ?_, fun h h' => ?_, fun h h' => ?_, fun h h' => ?_⟩
  · rw [if_pos h, if_pos (.inl h')]
  · rw [if_pos h]
    split <;> simp
  · rw [if_neg (Nat.not_le.2 h), if_pos h']
  · rw [if_neg (Nat.not_le.2 h), if_neg (Nat.not_le.2 h')]

/-- A U never puts the Limiter in FAULT. -/
theorem nextLimiterState_code (rct : Image) (u : Nat) (l : LimiterState) : (nextLimiterState rct u l).code ≠ 3 := by
  have row (t : Nat) : (limiterRow rct t u).code ≠ 3 := by
    unfold limiterRow
    (repeat' split) <;> simp [LimiterState.code]
  cases l <;> exact row _

end Sys2Proof.Machine
end

