-- ==== Sys2Proof/Laws/Operands.lean ====
section
/-! SUPPORT. What the readers and writers of bytes and words give. -/

namespace Sys2Proof.Machine

/-- The pair of bytes at an index, byte by byte. -/
theorem pairAt_eq (data : List Byte) (k : Nat) :
    pairAt data k = (byteAt data k).toNat + 256 * (byteAt data (k + 1)).toNat := rfl

/-- A pair of bytes is below 65536. -/
theorem pairAt_lt (data : List Byte) (k : Nat) : pairAt data k < 65536 := by
  have h0 := (byteAt data k).isLt
  have h1 := (byteAt data (k + 1)).isLt
  rw [pairAt_eq]
  omega

/-- A byte of a byte's number is that byte. -/
@[simp] theorem byteOf_toNat (b : Byte) : byteOf b.toNat = b := by
  simp [byteOf]

/-- Two bytes written from a pair that was read are the two bytes read. -/
@[simp] theorem bytes2_pairAt (data : List Byte) (k : Nat) :
    bytes2 (pairAt data k) = [byteAt data k, byteAt data (k + 1)] := by
  have h0 := (byteAt data k).isLt
  have h1 := (byteAt data (k + 1)).isLt
  simp only [bytes2, byteOf, pairAt_eq, List.cons.injEq, and_true]
  constructor <;> apply BitVec.eq_of_toNat_eq <;> simp only [BitVec.toNat_ofNat] <;> omega

/-- Clamping as a maximum and a minimum. -/
theorem clamp_eq {lo hi : Int} (h : lo ≤ hi) (x : Int) : clamp lo hi x = max lo (min hi x) := by
  unfold clamp
  split
  · omega
  · split <;> omega

/-- A clamped value lies in the range. -/
theorem clamp_range {lo hi : Int} (h : lo ≤ hi) (x : Int) : lo ≤ clamp lo hi x ∧ clamp lo hi x ≤ hi := by
  unfold clamp
  split
  · omega
  · split <;> omega

/-- The kind of a code is the kind that has the code. -/
theorem kindOfCode_eq_some {n : Nat} {k : Kind} : kindOfCode n = some k ↔ k.code = n := by
  unfold kindOfCode
  split <;> cases k <;> simp_all [Kind.code] <;> omega

/-- The kind of a kind's own code. -/
@[simp] theorem kindOfCode_code (k : Kind) : kindOfCode k.code = some k :=
  kindOfCode_eq_some.2 rfl

/-- Only the codes 1..5 have a kind. -/
theorem kindOfCode_eq_none {n : Nat} : kindOfCode n = none ↔ n = 0 ∨ 5 < n := by
  unfold kindOfCode
  split <;> simp_all
  omega

end Sys2Proof.Machine
end

