-- ==== Sys2Proof/Laws/LoadArith.lean ====
section
/-! SUPPORT. The bounds of the load stages, and the least rating. -/

namespace Sys2Proof.Machine

/-- The sector count of a chart that states one of 1..8. -/
theorem rctSectorCount_of {ws : Image} (h1 : 1 ≤ fieldAt ws 0) (h2 : fieldAt ws 0 ≤ 8) : rctSectorCount ws = fieldAt
    ws 0 := by
  unfold rctSectorCount; simp only; rw [if_pos ⟨h1, h2⟩]

/-- The least rating is at most each of them (R45). -/
theorem leastRating_le (rct band t) : ∀ s, s < max 1 (rctSectorCount rct) → leastRating rct band t ≤ effectiveRating
    rct s band t := by
  have key : ∀ (l : List Nat) (m : Nat), (l.foldl (fun m s => min m (effectiveRating rct (s + 1) band t)) m ≤ m) ∧ ∀ s
      ∈ l, l.foldl (fun m s => min m (effectiveRating rct (s + 1) band t)) m ≤ effectiveRating rct (s + 1) band t :=
          by
    intro l
    induction l with
    | nil => simp
    | cons a l ih =>
      intro m
      simp only [List.foldl_cons, List.mem_cons, forall_eq_or_imp]
      have h := ih (min m (effectiveRating rct (a + 1) band t))
      refine ⟨by omega, by omega, h.2⟩
  intro s hs
  unfold leastRating
  cases s with
  | zero => exact (key _ _).1
  | succ s => exact (key _ _).2 s (by simp; omega)

/-- The least rating is one of them (R45). -/
theorem leastRating_mem (rct band t) : ∃ s, s < max 1 (rctSectorCount rct) ∧ leastRating rct band t = effectiveRating
    rct s band t := by
  have key : ∀ (l : List Nat) (m : Nat), (l.foldl (fun m s => min m (effectiveRating rct (s + 1) band t)) m = m) ∨ ∃ s
      ∈ l, l.foldl (fun m s => min m (effectiveRating rct (s + 1) band t)) m = effectiveRating rct (s + 1) band t :=
          by
    intro l
    induction l with
    | nil => simp
    | cons a l ih =>
      intro m
      simp only [List.foldl_cons, List.mem_cons, exists_eq_or_imp]
      rcases ih (min m (effectiveRating rct (a + 1) band t)) with h | ⟨s, h1, h2⟩
      · rw [h]; omega
      · exact .inr (.inr ⟨s, h1, h2⟩)
  unfold leastRating
  rcases key (List.range (rctSectorCount rct - 1)) (effectiveRating rct 0 band t) with h | ⟨s, h1, h2⟩
  · exact ⟨0, by omega, h⟩
  · exact ⟨s + 1, by simp at h1; omega, h2⟩

/-- The last number below a bound that passes a test. -/
theorem filter_range_getLast {p : Nat → Bool} : ∀ {n : Nat}, (∃ i < n, p i = true) → ∃ s, ((List.range n).filter
    p).getLast? = some s ∧ s < n ∧ p s = true ∧ ∀ j, s < j → j < n → p j = false := by
  intro n
  induction n with
  | zero => rintro ⟨i, h, _⟩; omega
  | succ n ih =>
    rintro ⟨i, hi, hp⟩
    rw [List.range_succ, List.filter_append]
    by_cases hn : p n = true
    · refine ⟨n, by simp [hn], by omega, hn, fun j h1 h2 => by omega⟩
    · have : i < n := by
        rcases Nat.lt_or_eq_of_le (Nat.le_of_lt_succ hi) with h | h
        · exact h
        · subst h; exact absurd hp hn
      obtain ⟨s, h1, h2, h3, h4⟩ := ih ⟨i, this, hp⟩
      refine ⟨s, by simpa [hn] using h1, by omega, h3, fun j hj1 hj2 => ?_⟩
      by_cases hj : j = n
      · subst hj; simpa using hn
      · exact h4 j hj1 (by omega)

/-- The ranges of the fields of a BMT that the stages need (8.2). -/
structure BmtOk (ws : Image) : Prop where
  lp : fieldAt ws 0 ≤ 20000
  l1 : fieldAt ws 1 ≤ 20000
  l2 : fieldAt ws 2 ≤ 20000
  aPist : fieldAt ws 3 ≤ 65535
  aRod : fieldAt ws 4 ≤ 65535
  eMax : fieldAt ws 5 ≤ 20000
  lever : ∀ j, 13 ≤ j → j < 46 → 50 ≤ fieldAt ws j ∧ fieldAt ws j ≤ 2000

/-- No cosine is beyond 16384 (R26). -/
theorem cosine_le (a : Int) : cosineAt a ≤ 16384 := by
  have key : ∀ x ∈ cosineList, x ≤ 16384 := by decide +kernel
  unfold cosineAt
  rw [List.getD_eq_getElem?_getD]
  cases h : cosineList[min a.natAbs 900]? with
  | none => simp
  | some x => exact key x (List.mem_of_getElem? h)

/-- A projection is no longer than what it is of (R27). -/
theorem projection_le (l a) : projection l a ≤ l := by
  unfold projection
  apply Nat.div_le_of_le_mul
  rw [Nat.mul_comm]
  exact Nat.mul_le_mul_right _ (cosine_le a)

/-- The bound of the utilisation (R46). -/
theorem utilisationOf_le (w e) : utilisationOf w e ≤ 1999 := by
  unfold utilisationOf
  split
  · omega
  · split
    · omega
    · split <;> omega

/-- The bound of a rating's utilisation. -/
theorem ratingOf_utilisation_le (rct slew b w) : (ratingOf rct slew b w).utilisation ≤ 1999 := by
  unfold ratingOf; split <;> exact utilisationOf_le _ _

end Sys2Proof.Machine
end

