-- ==== Sys2Proof/Laws/Ports.lean ====
section
/-! SUPPORT. The two transmitters under each operation. -/

namespace Sys2Proof.Machine

/-! ### The invariant in its parts -/

/-- With no frame in flight there is nothing to hold. -/
theorem CabPort.flightOk_of_none {c : CabPort} (h : c.flight = none) : c.FlightOk := by
  unfold CabPort.FlightOk
  rw [h]
  trivial

/-- A change of the FIFOs that leaves a response waiting. -/
theorem CabPort.FlightOk.fifos {c : CabPort} (h : c.FlightOk) (requests responses) (hr : responses ≠ []) :
    CabPort.FlightOk { c with requests := requests, responses := responses } := by
  unfold CabPort.FlightOk at h ⊢
  simp only
  split at h
  · exact ⟨hr, h.2⟩
  · exact h
  · trivial

/-- The Cab Port, but for what may be waiting. -/
structure CabOk (s : State) : Prop where
  port : PortInv s.cab.port
  requests : s.cab.requests.length ≤ 4
  responses : s.cab.responses.length ≤ 4
  flight : s.cab.flight ≠ none → s.cab.port.up = true
  response : s.cab.FlightOk
  reset : s.mgmt.softResetPending = true →
    ∃ r, s.cab.responses.getLast? = some r ∧ byteAt r 0 = 0x61 ∧ byteAt r 1 = 0

/-- Nothing waits at a free Cab Port. -/
def CabIdle (s : State) : Prop := s.cab.port.up = true → s.cab.flight = none → s.cab.responses = [] ∧
    s.mgmt.noticePending = false

/-- The Crane Port, but for what may be waiting. -/
structure CraneOk (s : State) : Prop where
  port : PortInv s.crane.port
  flight : ∀ f, s.crane.flight = some f → s.crane.port.up = true ∧ f.id = 0x2C4

/-- Nothing waits at a free Crane Port. -/
def CraneIdle (s : State) : Prop := s.crane.port.up = true → s.crane.flight = none → s.valve.pending = false

/-- The invariant of the transmitters in its parts. -/
theorem transmitterInv_iff (s : State) : TransmitterInv s ↔ (CabOk s ∧ CabIdle s) ∧ (CraneOk s ∧ CraneIdle s) :=
  ⟨fun h => ⟨⟨⟨h.cabPort, h.requests, h.responses, h.cabFlight, h.cabFrame, h.reset⟩, h.cabBusy⟩, ⟨h.cranePort,
      h.craneFlight⟩, h.craneBusy⟩,
   fun ⟨⟨h1, h2⟩, h3, h4⟩ => ⟨h1.port, h3.port, h1.requests, h1.responses, h1.flight, h1.response, h2, h3.flight, h4,
       h1.reset⟩⟩

/-- The Cab Port's part of the invariant. -/
def CabInv (s : State) : Prop := CabOk s ∧ CabIdle s

/-- The Crane Port's part of the invariant. -/
def CranePortInv (s : State) : Prop := CraneOk s ∧ CraneIdle s

/-- A change outside the Cab Port. -/
theorem CabOk.congr {s t : State} (h : CabOk s) (e1 : t.cab = s.cab) (e2 : t.mgmt.softResetPending =
    s.mgmt.softResetPending) : CabOk t :=
  ⟨e1 ▸ h.port, e1 ▸ h.requests, e1 ▸ h.responses, e1 ▸ h.flight, e1 ▸ h.response, by rw [e1, e2]; exact h.reset⟩

/-- A change outside the Cab Port and its notice. -/
theorem CabInv.congr {s t : State} (h : CabInv s) (e1 : t.cab = s.cab) (e2 : t.mgmt.softResetPending =
    s.mgmt.softResetPending) (e3 : t.mgmt.noticePending = s.mgmt.noticePending) : CabInv t :=
  ⟨h.1.congr e1 e2, by unfold CabIdle; rw [e1, e3]; exact h.2⟩

/-- A change outside the Crane Port. -/
theorem CraneOk.congr {s t : State} (h : CraneOk s) (e1 : t.crane = s.crane) : CraneOk t := ⟨e1 ▸ h.port, e1 ▸
    h.flight⟩

/-- A change outside the Crane Port and the pending flag. -/
theorem CranePortInv.congr {s t : State} (h : CranePortInv s) (e1 : t.crane = s.crane) (e2 : t.valve.pending =
    s.valve.pending) : CranePortInv t :=
  ⟨⟨e1 ▸ h.1.port, e1 ▸ h.1.flight⟩, by unfold CraneIdle; rw [e1, e2]; exact h.2⟩

/-- When the Cab Port is free. -/
theorem cabFree_iff (s : State) : cabFree s = true ↔ s.cab.port.up = true ∧ s.cab.flight = none := by simp [cabFree]

/-! ### Starts -/

/-- A start on the Cab Port gives its part of the invariant. -/
theorem startCab_inv {s : State} (h : CabOk s) : CabInv (startCab s) := by
  unfold startCab
  split
  · rename_i hf
    obtain ⟨hu, hfl⟩ := (cabFree_iff s).1 hf
    split
    · rename_i hr
      exact ⟨⟨h.port, h.requests, h.responses, fun _ => hu, ⟨hr, rfl⟩, h.reset⟩, fun _ hc => by cases hc⟩
    · rename_i hr
      simp only [ne_eq, not_not] at hr
      split
      · exact ⟨⟨h.port, h.requests, h.responses, fun _ => hu, rfl, h.reset⟩, fun _ hc => by
            cases hc⟩
      · rename_i hn
        exact ⟨h, fun _ _ => ⟨hr, by simpa using hn⟩⟩
  · rename_i hf
    exact ⟨h, fun h1 h2 => absurd ((cabFree_iff s).2 ⟨h1, h2⟩) hf⟩

/-- The choice between a response and a notice gives it too. -/
theorem startCabEither_inv {s : State} (h : CabOk s) (hf : cabFree s = true) (hr : s.cab.responses ≠ []) : CabInv
    (startCabEither s) := by
  obtain ⟨hu, hfl⟩ := (cabFree_iff s).1 hf
  unfold startCabEither
  simp only
  split
  · exact ⟨⟨h.port, h.requests, h.responses, fun _ => hu, rfl, h.reset⟩, fun _ hc => by cases hc⟩
  · exact ⟨⟨h.port, h.requests, h.responses, fun _ => hu, ⟨hr, rfl⟩, h.reset⟩, fun _ hc => by cases hc⟩

/-- A start on the Cab Port after a change outside it. -/
theorem CabOk.startCab {s t : State} (h : CabOk s) (e1 : t.cab = s.cab) (e2 : t.mgmt.softResetPending =
    s.mgmt.softResetPending) : CabInv (startCab t) := startCab_inv (h.congr e1 e2)

/-- A start on the Crane Port gives its part of the invariant (R100). -/
theorem startValve_inv {s : State} (h : CraneOk s) : CranePortInv (startValve s) := by
  unfold startValve
  split
  · rename_i hc
    simp only [Bool.and_eq_true, Option.isNone_iff_eq_none] at hc
    exact ⟨⟨h.port, fun f hf => ⟨hc.2, by cases hf; rfl⟩⟩, fun _ hc => by cases hc⟩
  · rename_i hc
    refine ⟨h, fun h1 h2 => ?_⟩
    by_contra hp
    apply hc
    simp [h1, h2]; simpa using hp

/-- A request of a valve frame gives it too (R99). -/
theorem requestValve_inv {s : State} (h : CraneOk s) : CranePortInv (requestValve s) := startValve_inv (h.congr rfl)

/-- Both starts give the Crane Port's part. -/
theorem startValve_startCab_inv {s : State} (h : CraneOk s) : CranePortInv (startCab (startValve s)) :=
    (startValve_inv h).congr (by simp) (by simp)

/-! ### A port's counts -/

/-- A transmission end (R187). -/
theorem PortInv.sent {p : Port} (h : PortInv p) (hm : p.mode = .active) : PortInv p.sent := by
  refine ⟨?_, h.rx, h.recovery, h.idle⟩
  have := h.off
  simp only [Port.sent, hm] at this ⊢
  simp at this ⊢; omega

/-- A correct reception (R187). -/
theorem PortInv.received {p : Port} (h : PortInv p) : PortInv p.received :=
    ⟨h.off, by simp only [Port.received]; have := h.rx; omega, h.recovery, h.idle⟩

/-- An error leaves a port up. -/
theorem withError_up {p : Port} (h : p.up = true) (role) : (p.withError role).up = true := by cases role <;> exact h

/-- An error that does not send the port OFF. -/
theorem withError_inv {p : Port} (h : PortInv p) (hm : p.mode = .active) (role) (hb : ¬ 255 < (p.withError
    role).txErrors) : PortInv (p.withError role) := by
  have h1 : (p.withError role).mode = p.mode := by cases role <;> rfl
  have h2 : (p.withError role).recovery = p.recovery := by cases role <;> rfl
  refine ⟨?_, ?_, h2 ▸ h.recovery, by rw [h1, h2]; exact h.idle⟩
  · rw [h1, hm]; simp; omega
  · have := h.rx; cases role <;> simp [Port.withError] <;> omega

/-- A port that goes OFF. -/
theorem goOff_inv {p : Port} (h : PortInv p) (role) (hb : 255 < (p.withError role).txErrors) : PortInv (p.withError
    role).goOff := by
  refine ⟨by simp only [Port.goOff, true_iff]; exact hb, ?_, by simp [Port.goOff], by simp [Port.goOff]⟩
  have := h.rx; cases role <;> simp [Port.goOff, Port.withError] <;> omega

/-! ### What leaves a pending soft reset -/

/-- Raising a flag leaves a pending soft reset. -/
@[simp] theorem raise_srp (f s) : (raise f s).mgmt.softResetPending = s.mgmt.softResetPending := rfl

/-- Raising a flag leaves a pending soft reset. -/
@[simp] theorem raiseIf_srp (b f s) : (raiseIf b f s).mgmt.softResetPending = s.mgmt.softResetPending := by
    cases b <;> rfl

/-- Raising a flag leaves a pending soft reset. -/
@[simp] theorem raiseAny_srp (f s) : (raiseAny f s).mgmt.softResetPending = s.mgmt.softResetPending := by
    cases f <;> rfl

/-- The arrival of a record leaves a pending soft reset. -/
@[simp] theorem recordArrives_srp (r s) : (recordArrives r s).mgmt.softResetPending = s.mgmt.softResetPending := by
    simp [recordArrives]

/-- An evaluation of the Limiter leaves a pending soft reset. -/
@[simp] theorem limiterTakes_srp (a r s) : (limiterTakes a r s).mgmt.softResetPending = s.mgmt.softResetPending := by
    simp [limiterTakes]

/-- What the Weigh Unit hands out leaves a pending soft reset. -/
@[simp] theorem weighHandsOut_srp (e s) : (weighHandsOut e s).mgmt.softResetPending = s.mgmt.softResetPending := by
    cases e <;> simp [weighHandsOut]

/-- The Weigh Unit's work leaves a pending soft reset. -/
@[simp] theorem weighWorks_srp (e s) : (weighWorks e s).mgmt.softResetPending = s.mgmt.softResetPending := by
    simp [weighWorks]

/-- A load result at the Weigh Unit leaves a pending soft reset. -/
@[simp] theorem weighTakes_srp (e s) : (weighTakes e s).mgmt.softResetPending = s.mgmt.softResetPending := by
    simp [weighTakes]

/-- A load result leaves a pending soft reset. -/
@[simp] theorem lauTakes_srp (e s) : (lauTakes e s).mgmt.softResetPending = s.mgmt.softResetPending := by
    simp [lauTakes]

/-- A scan completion leaves a pending soft reset. -/
@[simp] theorem completeScan_srp (a e s) : (completeScan a e s).mgmt.softResetPending = s.mgmt.softResetPending := by
    simp [completeScan]

/-- A granted take leaves a pending soft reset. -/
@[simp] theorem grantTake_srp (a e s) : (grantTake a e s).mgmt.softResetPending = s.mgmt.softResetPending := by
    simp [grantTake]

/-- A demand frame leaves a pending soft reset. -/
@[simp] theorem takeDemandFrame_srp (a e s) : (takeDemandFrame a e s).mgmt.softResetPending = s.mgmt.softResetPending
    := by unfold takeDemandFrame; (repeat' split) <;> simp

/-- An accepted FMT leaves a pending soft reset. -/
@[simp] theorem fmtAccepted_srp (s) : (fmtAccepted s).mgmt.softResetPending = s.mgmt.softResetPending := by
    simp [fmtAccepted]

/-- An accepted WPT leaves a pending soft reset. -/
@[simp] theorem wptAccepted_srp (s) : (wptAccepted s).mgmt.softResetPending = s.mgmt.softResetPending := by
    unfold wptAccepted; split <;> simp

/-- An accepted commit leaves a pending soft reset. -/
@[simp] theorem acceptedBy_srp (k s) : (acceptedBy k s).mgmt.softResetPending = s.mgmt.softResetPending := by
    cases k <;> simp [acceptedBy]

/-! ### Operations -/

/-- Serving a request keeps the Cab Port's part (R174, R181). -/
theorem serve_cabInv {req p d} {s : State} (hs : CabInv s)
    (hd : ∀ f u, requestOf f = req → (d f u).1.cab = u.cab ∧ ((d f u).1.mgmt.softResetPending = true →
        u.mgmt.softResetPending = true ∨ ((d f u).2.status = .ok ∧ byteAt f 0 = 0x61))) :
    CabInv (serve req p d s) := by
  unfold serve
  split
  · exact hs
  · simp only
    rename_i frame rest hreq
    split
    · rename_i hc
      obtain ⟨h1, h2⟩ := hd frame { s with cab := { s.cab with requests := rest } } hc.2
      generalize hr : d frame { s with cab := { s.cab with requests := rest } } = r at *
      have hct := hc.1
      simp only [canTake, Bool.and_eq_true, decide_eq_true_eq, Bool.not_eq_true'] at hct
      have hok : CabOk { r.1 with
          cab := { r.1.cab with responses := r.1.cab.responses ++ [responseTo frame r.2] }
          mgmt := { r.1.mgmt with prepare := p } } := by
        have hq := hs.1.requests
        rw [hreq] at hq
        refine ⟨?_, ?_, ?_, ?_, ?_, ?_⟩
        · simp only [h1]; exact hs.1.port
        · simp only [h1]; simp at hq; omega
        · simp only [h1, List.length_append, List.length_cons, List.length_nil]; omega
        · simp only [h1]; exact hs.1.flight
        · simp only [h1]
          exact hs.1.response.fifos _ _ (by simp)
        · intro hp
          rcases h2 hp with h3 | ⟨h3, h4⟩
          · simp only at h3; rw [hct.2] at h3; cases h3
          · exact ⟨responseTo frame r.2, by simp, h4, by show byteOf r.2.status.code = 0; rw [h3]; rfl⟩
      split
      · rename_i hcond
        refine startCabEither_inv hok ?_ (by simp)
        have := hcond.1
        simp only [cabFree, h1] at this ⊢; exact this
      · exact startCab_inv hok
    · exact hs

/-- Serving a request whose decision leaves the Cab Port and a pending soft reset. -/
theorem serve_cabInv_of_eq {req p d} {s : State} (hs : CabInv s)
    (hd : ∀ f u, (d f u).1.cab = u.cab ∧ (d f u).1.mgmt.softResetPending = u.mgmt.softResetPending) :
    CabInv (serve req p d s) := serve_cabInv hs fun f u _ => ⟨(hd f u).1, fun h => .inl ((hd f u).2 ▸ h)⟩

/-- Serving a request keeps the Crane Port's part where its decision does. -/
theorem serve_cranePortInv {req p d} {s : State} (hs : CranePortInv s)
    (hd : ∀ f u, CranePortInv u → CranePortInv (d f u).1) : CranePortInv (serve req p d s) := by
  unfold serve
  split
  · exact hs
  · simp only
    split
    · rename_i frame rest hreq hc
      have h1 := hd frame { s with cab := { s.cab with requests := rest } } (hs.congr rfl rfl)
      split
      · exact h1.congr (by simp) (by simp)
      · exact h1.congr (by simp) (by simp)
    · exact hs

/-- A soft reset clears what waits at the Cab Port (R182). -/
theorem softReset_cabOk {s : State} (h : PortInv s.cab.port) (hf : s.cab.flight = none) : CabOk (softReset s) := by
  have hc : (softReset s).cab = { s.cab with requests := [], responses := [] } := by
    unfold softReset; simp only; split <;> simp [weighSoftReset] <;> split <;> simp
  have hm : (softReset s).mgmt.softResetPending = false := by
    have key : ∀ u : State, (weighSoftReset u).mgmt.softResetPending = u.mgmt.softResetPending := by
      intro u; unfold weighSoftReset; split <;> simp
    unfold softReset; simp only; split <;> simp [key, Management.softReset]
  refine ⟨by rw [hc]; exact h, by rw [hc]; simp, by rw [hc]; simp, by rw [hc]; simp [hf],
    CabPort.flightOk_of_none (by rw [hc]; exact hf), by rw [hm]; simp⟩

/-- A soft reset keeps the Crane Port's part. -/
theorem softReset_cranePortInv {s : State} (hs : CranePortInv s) : CranePortInv (softReset s) := by
  unfold softReset
  simp only
  split
  · exact requestValve_inv ⟨by simp; exact hs.1.port, by simp; exact hs.1.flight⟩
  · exact hs.congr (by simp) (by simp)

/-- A recovery keeps the Cab Port's part (R187). -/
theorem recoverPort_cabInv {s : State} {id} (hs : CabInv s) (ho : (portOf s id).mode = .off) : CabInv (recoverPort id s)
    := by
  cases id
  · have hf : s.cab.flight = none := by
      by_contra hf
      have := (Port.up_iff _).1 (hs.1.flight hf)
      simp only [portOf] at ho; rw [ho] at this; simp at this
    refine startCab_inv ⟨⟨by
        simp [raise, setPort, portOf, Port.recover], by
            simp [raise, setPort, portOf, Port.recover], by
                simp [raise, setPort, portOf, Port.recover], by
                    simp [raise, setPort, portOf, Port.recover]⟩, hs.1.requests, hs.1.responses, ?_, hs.1.response,
                        hs.1.reset⟩
    intro h; exact absurd hf h
  · exact hs.1.startCab (by simp [raise, setPort]) (by simp [raise, setPort])

/-- A recovery keeps the Crane Port's part (R187). -/
theorem recoverPort_cranePortInv {s : State} {id} (hs : CranePortInv s) (ho : (portOf s id).mode = .off) : CranePortInv
    (recoverPort id s) := by
  cases id
  · exact hs.congr (by simp [recoverPort, startWaiting, raise, setPort])
        (by simp [recoverPort, startWaiting, raise, setPort])
  · have hf : s.crane.flight = none := by
      by_contra hf
      obtain ⟨f, hf⟩ := Option.ne_none_iff_exists'.1 hf
      have := (Port.up_iff _).1 (hs.1.flight f hf).1
      simp only [portOf] at ho; rw [ho] at this; simp at this
    refine startValve_startCab_inv
        ⟨⟨by simp [raise, setPort, portOf, Port.recover], by simp [raise, setPort, portOf, Port.recover], by simp [raise, setPort, portOf, Port.recover], by simp [raise, setPort, portOf, Port.recover]⟩, ?_⟩
    intro f h; cases hf.symm.trans h

/-- The Cab Port goes OFF (R179, R186). -/
theorem busOff_cabOk {s : State} (hs : CabInv s) (hu : s.cab.port.up = true) (role) (hb : 255 < (s.cab.port.withError
    role).txErrors) :
    CabOk (busOff .cab (setPort s .cab (s.cab.port.withError role))) := by
  have key : ∀ u : State, PortInv u.cab.port → u.cab.requests.length ≤ 4 → u.cab.responses.length ≤ 4 → 
      (u.mgmt.softResetPending = true → ∃ r, u.cab.responses.getLast? = some r ∧ byteAt r 0 = 0x61 ∧ byteAt r 1 = 0) →
          CabOk (raise .port (dropCabFlight u)) := by
    intro u h1 h2 h3 h4
    unfold dropCabFlight
    simp only
    split <;> exact ⟨h1, h2, h3, by simp [raise], CabPort.flightOk_of_none rfl, h4⟩
  exact key _ (goOff_inv hs.1.port role hb) hs.1.requests hs.1.responses hs.1.reset

/-- The Crane Port goes OFF (R104, R186). -/
theorem busOff_cranePortInv {s : State} (hs : CranePortInv s) (hu : s.crane.port.up = true) (role)
    (hb : 255 < (s.crane.port.withError role).txErrors) :
    CranePortInv (startCab (busOff .crane (setPort s .crane (s.crane.port.withError role)))) := by
  have key : ∀ u : State, PortInv u.crane.port → u.crane.port.mode = .off → CranePortInv
      (startCab (raise .port (activeToReady (dropCraneFlight u)))) := by
    intro u h1 h2
    have hc : (startCab (raise .port (activeToReady (dropCraneFlight u)))).crane = { u.crane with flight := none } :=
        by
      simp; unfold dropCraneFlight; split
      · rfl
      · rename_i h; rw [← h]
    refine ⟨⟨by rw [hc]; exact h1, by rw [hc]; simp⟩, ?_⟩
    intro h; rw [hc, Port.up_iff] at h; simp [h2] at h
  exact key _ (goOff_inv hs.1.port role hb) rfl

end Sys2Proof.Machine
end

