-- ==== Sys2Proof/Laws/Records.lean ====
section
/-! SUPPORT. The record queue: its numbers, arrivals and acknowledgements. -/

namespace Sys2Proof.Machine

/-- How many numbers the last numbers are. -/
theorem lastNumbers_length (n k : Nat) : (lastNumbers n k).length = k := by
  induction k generalizing n with
  | zero => rfl
  | succ k ih => simp [lastNumbers, ih]

/-- The number before the number after a number is that number. -/
theorem numberBefore_after {n : Nat} (h : 1 ≤ n ∧ n ≤ 65535) : numberBefore (numberAfter n) = n := by
  unfold numberBefore numberAfter; split <;> split <;> omega

/-- The last numbers after one more has been given. -/
theorem lastNumbers_after {n k : Nat} (h : 1 ≤ n ∧ n ≤ 65535) : lastNumbers (numberAfter n) (k+1) = lastNumbers n k ++
    [n] := by
  simp only [lastNumbers, numberBefore_after h]

/-- The last numbers without the oldest of them. -/
theorem lastNumbers_drop (n k j : Nat) (hj : j ≤ k) : (lastNumbers n k).drop j = lastNumbers n (k - j) := by
  induction k generalizing n with
  | zero => simp at hj; subst hj; simp
  | succ k ih =>
    by_cases h : j = k + 1
    · subst h; rw [List.drop_of_length_le (by rw [lastNumbers_length])]; simp [lastNumbers]
    · rw [lastNumbers, List.drop_append_of_le_length (by rw [lastNumbers_length]; omega), ih _ (by omega)]
      rw [show k + 1 - j = (k - j) + 1 by omega]
      rfl

/-- Where the last numbers lie, counted back from the next number. -/
theorem lastNumbers_mem (n k : Nat) (h : 1 ≤ n ∧ n ≤ 65535) (hk : k ≤ 65535) : ∀ m ∈ lastNumbers n k, 1 ≤ m ∧ m ≤
    65535 ∧ ((m < n ∧ n ≤ m + k) ∨ (n ≤ m ∧ n + 65535 ≤ m + k)) := by
  induction k generalizing n with
  | zero => simp [lastNumbers]
  | succ k ih =>
    intro m hm
    simp only [lastNumbers, List.mem_append, List.mem_singleton] at hm
    have hb : 1 ≤ numberBefore n ∧ numberBefore n ≤ 65535 := by unfold numberBefore; split <;> omega
    rcases hm with hm | hm
    · have := ih (numberBefore n) hb (by omega) m hm
      unfold numberBefore at this
      split at this <;> omega
    · subst hm
      unfold numberBefore
      split <;> omega

/-- No number stands twice among the last 48. -/
theorem lastNumbers_nodup (n k : Nat) (h : 1 ≤ n ∧ n ≤ 65535) (hk : k ≤ 48) : (lastNumbers n k).Nodup := by
  induction k generalizing n with
  | zero => simp [lastNumbers]
  | succ k ih =>
    have hb : 1 ≤ numberBefore n ∧ numberBefore n ≤ 65535 := by unfold numberBefore; split <;> omega
    rw [lastNumbers, List.nodup_append]
    refine ⟨ih _ hb (by omega), by simp, ?_⟩
    intro a ha b hb' hab
    simp only [List.mem_singleton] at hb'
    have := lastNumbers_mem _ k hb (by omega) a ha
    omega

/-- An acknowledgement drops records from the head of the queue (R136). -/
theorem newerThan_eq_drop {n : Nat} {q r : List LiftRecord} (h : newerThan n q = some r) : ∃ j ≤ q.length, r = q.drop
    j := by
  induction q with
  | nil => simp [newerThan] at h
  | cons x q ih =>
    simp only [newerThan] at h
    split at h
    · cases h; exact ⟨1, by simp, by simp⟩
    · obtain ⟨j, hj, rfl⟩ := ih h
      exact ⟨j+1, by simp; omega, by simp⟩

/-- An arrival keeps the invariant of the Record Unit. -/
theorem RecordInv.arrive {u : RecordUnit} (h : RecordInv u) (w : Weighed) : RecordInv (u.arrive w) := by
  obtain ⟨h1, h2, h3, h4, h5, h6⟩ := h
  have hfull : u.full = true ↔ 48 ≤ u.queue.length := decide_eq_true_iff
  refine ⟨?_, ?_, ?_, ?_, ?_, ?_⟩
  · simp only [RecordUnit.arrive]
    split
    · simp; omega
    · rename_i hf; rw [hfull] at hf; simp; omega
  · simp only [RecordUnit.arrive, numberAfter]; split <;> omega
  · simp only [RecordUnit.arrive, completedRecord]
    split
    · rename_i hf
      rw [hfull] at hf
      simp only [List.map_append, List.map_drop, h3, List.map_cons, List.map_nil, List.length_append,
          List.length_drop, List.length_cons, List.length_nil]
      rw [lastNumbers_after h2, lastNumbers_drop _ _ _ (by omega)]
    · simp only [List.map_append, h3, List.map_cons, List.map_nil, List.length_append, List.length_cons,
          List.length_nil]
      rw [lastNumbers_after h2]
  · simp only [RecordUnit.arrive]; split <;> omega
  · simp [RecordUnit.arrive, h5]
  · simp only [RecordUnit.arrive]
    intro x hx
    rw [List.mem_iff_getElem?] at hx
    obtain ⟨i, hi⟩ := hx
    rw [List.getElem?_modify] at hi
    cases hy : u.tally[i]? with
    | none => simp [hy] at hi
    | some y =>
      have := h6 y (List.mem_iff_getElem?.2 ⟨i, hy⟩)
      simp only [hy, Option.map_eq_map, Option.map_some, Option.some.injEq] at hi
      subst hi
      split
      · unfold creditSort
        split
        · exact ⟨Nat.min_le_right _ _, Nat.min_le_right _ _⟩
        · exact ⟨Nat.min_le_right _ _, (Nat.sub_le _ _).trans this.2⟩
        · exact this
      · exact this

/-- Dropping the oldest records keeps the invariant of the Record Unit. -/
theorem RecordInv.ack {u : RecordUnit} (h : RecordInv u) (j : Nat) (hj : j ≤ u.queue.length) : RecordInv
    { u with queue := u.queue.drop j } := by
  obtain ⟨h1, h2, h3, h4, h5, h6⟩ := h
  refine ⟨?_, h2, ?_, h4, h5, h6⟩
  · simp; omega
  · simp only [List.map_drop, h3, List.length_drop]
    rw [lastNumbers_drop _ _ _ hj]

/-- The invariant of a Record Unit with a cleared tally. -/
theorem RecordInv.fresh (a) (t : TallyState) (n) (q) (d) : RecordInv ⟨q, n, d, t, List.replicate 16
    { lifts := 0, mass := 0 }, a⟩ ↔ (q.length ≤ 48 ∧ (1 ≤ n ∧ n ≤ 65535) ∧ q.map LiftRecord.number = lastNumbers n
        q.length ∧ d ≤ 255) := by
  constructor
  · rintro ⟨h1, h2, h3, h4, h5, h6⟩; exact ⟨h1, h2, h3, h4⟩
  · rintro ⟨h1, h2, h3, h4⟩
    refine ⟨h1, h2, h3, h4, by simp, ?_⟩
    intro x hx
    rw [List.eq_of_mem_replicate hx]; simp

/-- What the Weigh Unit hands out keeps the invariant of the Record Unit. -/
theorem RecordInv.weighHandsOut {s : State} (h : RecordInv s.records) (e : WeighEvent) : RecordInv (weighHandsOut e
    s).records := by
  cases e
  · exact h
  · exact h
  · simp only [Machine.weighHandsOut, recordArrives, raise_records, raiseIf_records]; exact h.arrive _

/-- A piece of the Weigh Unit's work keeps the invariant of the Record Unit. -/
theorem RecordInv.weighWorks {s : State} (h : RecordInv s.records) (e) : RecordInv (weighWorks e s).records := by
  exact RecordInv.weighHandsOut (s := { s with weigh := e.1 }) h _

/-- A load result at the Weigh Unit keeps the invariant of the Record Unit. -/
theorem RecordInv.weighTakes {s : State} (h : RecordInv s.records) (e) : RecordInv (weighTakes e s).records := by
  exact h.weighWorks _

end Sys2Proof.Machine
end

