-- ==== Sys2Proof/Laws/Scan.lean ====
section
/-! SUPPORT. A scan completion, block by block. -/

namespace Sys2Proof.Machine

/-- A channel record under a VALID CAL (R4, R7, R8). -/
theorem channelAfter_some (cal : Image) (i : Fin 6) (n : BitVec 12) (c : Channel) : channelAfter (some cal) i n c =
    { windowCount (isOut (calRecord cal i) n) c with count := n, value := some (engineeringValue (calRecord cal i) n) } := rfl

/-- A channel is out for a scan (R6). -/
theorem isOut_iff (k n) : isOut k n = true ↔ n.toNat / 16 < k.windowLow ∨ k.windowHigh < n.toNat / 16 := by
    unfold isOut; rw [Bool.or_eq_true, decide_eq_true_iff, decide_eq_true_iff]

/-- The load result of a scan record replaces the previous one (R19). -/
theorem lauTakes_lau (r s) : (lauTakes r s).lau = some (loadResultOf r) := by simp [lauTakes]

/-- The Limiter evaluates the new load result (R48). -/
theorem lauTakes_limiter (r s) : (lauTakes r s).limiter = s.limiter.evaluate r.rct (loadResultOf r) := by
    simp [lauTakes, limiterTakes]

/-- The Scan Unit after a scan completion (R9). -/
@[simp] theorem completeScan_scan (x n s) : (completeScan x n s).scan =
    { s.scan with channels := channelsAfter x.cal n s.scan.channels, inProgress := none } := by simp [completeScan]

/-- Raising a flag leaves the others. -/
theorem raise_getLsbD (f : NoticeFlag) (s : State) (k : Nat) (hk : k ≠ f.bit) : (raise f s).mgmt.flags.getLsbD k =
    s.mgmt.flags.getLsbD k := by
  have : f.weight.getLsbD k = false := by
    simp only [NoticeFlag.weight, BitVec.getLsbD_twoPow]
    simp only [Bool.and_eq_false_imp]
    intro _; simpa using Ne.symm hk
  show (s.mgmt.flags ||| f.weight).getLsbD k = _
  simp [this]

/-- Raising a flag sets it. -/
theorem raise_getLsbD_self (f : NoticeFlag) (s : State) : (raise f s).mgmt.flags.getLsbD f.bit = true := by
  show (s.mgmt.flags ||| f.weight).getLsbD f.bit = _
  have : f.weight.getLsbD f.bit = true := by cases f <;> rfl
  simp [this]

/-- An evaluation leaves the SENSOR flag. -/
theorem limiterTakes_sensor (a r s) : (limiterTakes a r s).mgmt.flags.getLsbD 4 = s.mgmt.flags.getLsbD 4 := by
  unfold limiterTakes raiseAny
  simp only
  split
  · rfl
  · rename_i f hf
    rw [raise_getLsbD]
    unfold evaluationFlag at hf
    split at hf
    · cases hf
    · cases hf; cases (s.limiter.evaluate a r).state <;> simp [LimiterState.entryFlag, NoticeFlag.bit]

/-- A load result at the Weigh Unit leaves the SENSOR flag. -/
theorem weighTakes_sensor (r s) : (weighTakes r s).mgmt.flags.getLsbD 4 = s.mgmt.flags.getLsbD 4 := by
  unfold weighTakes weighWorks weighHandsOut
  simp only
  split
  · rfl
  · rw [raise_getLsbD _ _ _ (by decide)]
  · unfold recordArrives raiseIf
    rw [raise_getLsbD _ _ _ (by decide)]
    split
    · rw [raise_getLsbD _ _ _ (by decide)]
    · rfl

/-- A scan completion sets the SENSOR flag exactly for a change of a fault (R7 to R9). -/
theorem completeScan_sensor (x n s) : (completeScan x n s).mgmt.flags.getLsbD 4 = (s.mgmt.flags.getLsbD 4 ||
    faultsChanged s.scan.channels (channelsAfter x.cal n s.scan.channels)) := by
  unfold completeScan lauTakes
  rw [weighTakes_sensor, limiterTakes_sensor]
  unfold raiseIf
  split
  · rename_i h
    have := raise_getLsbD_self .sensor
        { s with scan := { s.scan with channels := channelsAfter x.cal n s.scan.channels, inProgress := none } }
    rw [show NoticeFlag.sensor.bit = 4 from rfl] at this
    rw [h, Bool.or_true]; exact this
  · rename_i h
    simp only [Bool.not_eq_true] at h; rw [h, Bool.or_false]

/-! ## What a scan completion leaves of the Management Unit -/

/-- Nothing of the Management Unit has changed but its notice flags and their pending flag. -/
def NoticesOnly (m m' : Management) : Prop :=
  m' = { m with flags := m'.flags, noticePending := m'.noticePending }

/-- Two changes of the notice flags alone are one. -/
theorem NoticesOnly.trans {a b c : Management} (h : NoticesOnly a b) (h' : NoticesOnly b c) : NoticesOnly a c := by
  unfold NoticesOnly at *
  rw [h] at h'
  exact h'

/-- Raising a flag changes the notice flags alone. -/
theorem raise_noticesOnly (f : NoticeFlag) (s : State) : NoticesOnly s.mgmt (raise f s).mgmt := rfl

/-- An evaluation changes the notice flags alone (R54). -/
theorem limiterTakes_noticesOnly (a r s) : NoticesOnly s.mgmt (limiterTakes a r s).mgmt := by
  unfold limiterTakes raiseAny
  simp only
  split <;> rfl

/-- The arrival of a record changes the notice flags alone (R131, R132). -/
theorem recordArrives_noticesOnly (w s) : NoticesOnly s.mgmt (recordArrives w s).mgmt := by
  unfold recordArrives raiseIf
  split <;> rfl

/-- The Weigh Unit's work at a load result changes the notice flags alone. -/
theorem weighTakes_noticesOnly (r s) : NoticesOnly s.mgmt (weighTakes r s).mgmt := by
  unfold weighTakes weighWorks weighHandsOut
  simp only
  split
  · rfl
  · rfl
  · exact recordArrives_noticesOnly _ _

/-- A scan completion changes the notice flags alone. -/
theorem completeScan_noticesOnly (x n s) : NoticesOnly s.mgmt (completeScan x n s).mgmt := by
  unfold completeScan lauTakes raiseIf
  refine .trans (.trans ?_ (limiterTakes_noticesOnly _ _ _)) (weighTakes_noticesOnly _ _)
  split <;> rfl

/-- What a free Cab Port starts changes the notice flags alone (R179). -/
theorem startCab_noticesOnly (s : State) : NoticesOnly s.mgmt (startCab s).mgmt := by
  unfold startCab
  split
  · split
    · rfl
    · split <;> rfl
  · rfl

end Sys2Proof.Machine
end

