-- ==== Sys2Proof/Laws/Shaper.lean ====
section
/-! SUPPORT. The movement of a section, said once case by case (R85 to R91). -/

namespace Sys2Proof.Machine

/-- The reversal check (R90). -/
theorem reverses_iff (e : Int) (d : Direction) : reverses e d = true ↔ Reversal e d := by
  unfold reverses directionOf Reversal
  by_cases h1 : 0 < e
  · cases d <;> simp [h1] <;> omega
  · by_cases h2 : e < 0
    · cases d <;> simp [h1, h2] <;> omega
    · have : e = 0 := by omega
      subst this; simp

/-- Two values lie on the same side of 0. -/
theorem directionOf_eq_iff (x y : Int) (hy : y ≠ 0) : directionOf x = directionOf y ↔ 0 < y * x := by
  unfold directionOf
  rcases lt_or_gt_of_ne hy with h | h
  · have h' : ¬ 0 < y := by omega
    simp only [h, h', if_true, if_false]
    by_cases h1 : 0 < x
    · simp [h1]; exact le_of_lt h
    · by_cases h2 : x < 0
      · simp [h1, h2]; exact Int.mul_pos_of_neg_of_neg h h2
      · have : x = 0 := by omega
        subst this; simp
  · simp only [h, if_true]
    by_cases h1 : 0 < x
    · simp [h1]; exact h
    · simp [h1]
      split <;> simp <;> exact Int.mul_nonpos_of_nonneg_of_nonpos (le_of_lt h) (by omega)

/-- Everything that the movement toward an effective target can do (R88 to R91). -/
theorem moveSection_spec (a : AxisRecord) (e : Int) (r : Section) : SectionMoves a e r (moveSection a e r) := by
  obtain ⟨o, cut, dw, pd⟩ := r
  refine ⟨?_, ?_, ?_, ?_, ?_, ?_, ?_, ?_⟩
  · intro h
    simp only at h
    simp only [moveSection, holdDwell, if_pos (show dw ≠ 0 by omega)]
    exact ⟨trivial, trivial, trivial⟩
  · rintro h rfl
    simp only at h; subst h
    simp only [moveSection, ne_eq, not_true_eq_false, if_false]
    by_cases h0 : e = 0
    · subst h0; simp [moveAtZero]
    · rw [if_neg h0]
      have hf : falls e e = false := by simp [falls]
      have hg : grown a e e = e := by
        have : min (e.natAbs + a.accel) e.natAbs = e.natAbs := by omega
        rw [grown, this, Int.sign_mul_natAbs]
      simp only [moveAway, hf, hg]
      exact ⟨rfl, rfl, rfl⟩
  · intro h h0 he hr
    simp only at h h0 hr ⊢; subst h h0
    simp only [moveSection, ne_eq, not_true_eq_false, if_false, if_true, moveAtZero, he]
    have hg : ∀ r : Section, (startFromZero a e r).output = e.sign * (min a.accel e.natAbs : Nat) ∧ (startFromZero a e
        r).dwell = r.dwell ∧
       ((startFromZero a e r).output ≠ 0 → (startFromZero a e r).pendingDir = pendingBeside e) := by
      intro r
      have hout : (startFromZero a e r).output = e.sign * (min a.accel e.natAbs : Nat) := by
          simp [startFromZero, grown]
      refine ⟨hout, rfl, ?_⟩
      intro hne
      have : (startFromZero a e r).pendingDir = if (startFromZero a e r).output = 0 then r.pendingDir else
          (directionOf (startFromZero a e r).output).opposite := rfl
      rw [this, if_neg hne, hout]
      rw [hout] at hne
      have hm : 0 < (min a.accel e.natAbs : Nat) := by
        rcases Nat.eq_zero_or_pos (min a.accel e.natAbs) with h | h
        · rw [h] at hne; simp at hne
        · exact h
      rcases lt_or_gt_of_ne he with h | h
      · rw [Int.sign_eq_neg_one_of_neg h]
        simp only [directionOf, pendingBeside]
        rw [if_neg (by omega), if_pos (by omega), if_neg (by omega), if_pos h]; rfl
      · rw [Int.sign_eq_one_of_pos h]
        simp only [directionOf, pendingBeside]
        rw [if_pos (by omega), if_pos h]; rfl
    by_cases hrev : reverses e pd = true
    · rw [if_pos hrev, if_neg (fun hd => hr ⟨(reverses_iff _ _).1 hrev, hd⟩)]
      exact hg _
    · rw [if_neg hrev]; exact hg _
  · intro h h0 hr hd
    simp only at h h0 hr ⊢; subst h h0
    have he : e ≠ 0 := by rcases hr with ⟨h, _⟩ | ⟨h, _⟩ <;> omega
    simp only [moveSection, ne_eq, not_true_eq_false, if_false, if_true, moveAtZero, he, (reverses_iff _ _).2 hr, hd]
    exact ⟨trivial, trivial, trivial⟩
  · intro h hp hlt
    simp only at h hp hlt ⊢; subst h
    have ho : o ≠ 0 := by rintro rfl; simp at hp
    have hdir := (directionOf_eq_iff e o ho).2 hp
    have hf : falls e o = false := by
      simp only [falls, hdir, bne_self_eq_false, Bool.false_or, decide_eq_false_iff_not]; omega
    simp only [moveSection, ne_eq, not_true_eq_false, if_false, ho, moveAway, hf, grown]
    exact ⟨rfl, rfl, rfl⟩
  · intro h hp hlt
    simp only at h hp hlt ⊢; subst h
    have ho : o ≠ 0 := by rintro rfl; simp at hp
    have he : e ≠ 0 := by rintro rfl; simp at hp
    have hdir := (directionOf_eq_iff e o ho).2 hp
    have hf : falls e o = true := by
      simp only [falls, Bool.or_eq_true, decide_eq_true_eq]; exact .inr hlt
    have hfa : fallen a e o = o.sign * (max (o.natAbs - a.decel) e.natAbs : Nat) := by
      simp only [fallen, fallGoal, hdir, if_true]
    have hne : fallen a e o ≠ 0 := by
      rw [hfa]
      have : 0 < max (o.natAbs - a.decel) e.natAbs := by omega
      exact mul_ne_zero (by simpa using ho) (by omega)
    simp only [moveSection, ne_eq, not_true_eq_false, if_false, ho, moveAway, hf, hne, false_and, if_true]
    exact ⟨hfa, trivial, trivial⟩
  · intro h ho hp hlt
    simp only at h ho hp hlt ⊢; subst h
    have hdir : ¬ directionOf e = directionOf o := fun hc => by
      have := (directionOf_eq_iff e o ho).1 hc; omega
    have hf : falls e o = true := by simp [falls, hdir]
    have hfa : fallen a e o = o.sign * (o.natAbs - a.decel : Nat) := by
      simp [fallen, fallGoal, hdir]
    have hne : fallen a e o ≠ 0 := by
      rw [hfa]
      exact mul_ne_zero (by simpa using ho) (by omega)
    simp only [moveSection, ne_eq, not_true_eq_false, if_false, ho, moveAway, hf, hne, false_and, if_true]
    exact ⟨hfa, trivial, trivial⟩
  · intro h ho hp hlt
    simp only at h ho hp hlt ⊢; subst h
    have hdir : ¬ directionOf e = directionOf o := fun hc => by
      have := (directionOf_eq_iff e o ho).1 hc; omega
    have hf : falls e o = true := by simp [falls, hdir]
    have hfa : fallen a e o = 0 := by
      simp [fallen, fallGoal, hdir]; right; omega
    simp only [moveSection, ne_eq, not_true_eq_false, if_false, ho, moveAway, hf, if_true, hfa, true_and]
    by_cases hrev : reverses e pd = true
    · have hR := (reverses_iff _ _).1 hrev
      rw [if_pos hrev]
      by_cases hd : 1 ≤ a.dwell
      · rw [if_pos hd]
        exact ⟨rfl, fun _ _ => ⟨rfl, rfl⟩, fun _ h0 => by omega, fun hn => absurd hR hn⟩
      · rw [if_neg hd]
        exact ⟨rfl, fun _ h1 => absurd h1 hd, fun _ _ => ⟨rfl, rfl⟩, fun hn => absurd hR hn⟩
    · have hR : ¬ Reversal e pd := fun hc => hrev ((reverses_iff _ _).2 hc)
      rw [if_neg hrev]
      exact ⟨rfl, fun hc => absurd hc hR, fun hc => absurd hc hR, fun _ => ⟨rfl, rfl⟩⟩

/-- A target in a RAISES direction. -/
theorem raises_iff (a : AxisRecord) (x : Int) : raises a x = true ↔ InRaises a x := by
  unfold raises effectIn InRaises
  by_cases h1 : 0 < x
  · simp [h1]; omega
  · by_cases h2 : x < 0
    · simp [h1, h2]
    · simp [h1, h2]

/-- The states of the Limiter that cut. -/
theorem cuts_iff (l : LimiterState) : l.cuts = true ↔ l.Cutting := by
  cases l <;> simp [LimiterState.cuts, LimiterState.Cutting, LimiterState.code]

/-- The movement does not look at the cut flag. -/
theorem SectionMoves.withCut {a e r r'} (h : SectionMoves a e r r') (c : Bool) : SectionMoves a e r
    { r' with cut := c } :=
  ⟨h.dwelling, h.stands, h.starts, h.held, h.grows, h.falls, h.fallsOn, h.reaches⟩

/-- Everything that one section can do at a step (R85 to R91). -/
theorem stepSection_spec (axis : Option AxisRecord) (crane : CraneState) (lim : LimiterState) (w : Nat) (target : Int)
    (r : Section) :
    SectionSteps axis crane lim w target r (stepSection axis crane lim w target r) := by
  unfold SectionSteps stepSection
  cases axis with
  | none => exact ⟨rfl, rfl, rfl, rfl⟩
  | some a =>
    simp only
    have hm : ∀ e, SectionMoves a e r { moveSection a e r with cut := cutAfter a lim target r.cut } := fun e =>
        (moveSection_spec a e r).withCut _
    refine ⟨?_, ?_, ?_, ?_, ?_, ?_, ?_⟩
    · intro h
      have : raises a target = false := by
        by_contra hc; exact h ((raises_iff _ _).1 (by simpa using hc))
      simp [cutAfter, this]
    · intro h1 h2
      simp [cutAfter, (raises_iff _ _).2 h1, (cuts_iff _).2 h2]
    · intro h1 h2
      have : lim.cuts = false := by
        by_contra hc; exact h2 ((cuts_iff _).1 (by simpa using hc))
      simp [cutAfter, (raises_iff _ _).2 h1, this]
    · intro h
      simp only [effectiveTarget, if_pos h]
      exact hm 0
    · intro h1 h2
      simp only [effectiveTarget, h1, ne_eq, not_true_eq_false, if_false, if_pos h2]
      exact hm 0
    · intro h1 h2 h3 h4
      simp only [effectiveTarget, h1, h3, ne_eq, not_true_eq_false, if_false]
      simp only [h3] at h2 hm
      simp only [h2, (raises_iff _ _).2 h4]
      rw [h2] at hm
      exact hm _
    · intro h1 h2 h3
      have hn : ¬ (lim = .warn ∧ raises a target = true) := fun hc => h3 ⟨hc.1, (raises_iff _ _).1 hc.2⟩
      simp only [effectiveTarget, h1, ne_eq, not_true_eq_false, if_false]
      rw [h2, if_neg hn]
      rw [h2] at hm
      exact hm _

/-- A movement never takes an output across 0, and lets it grow only toward its effective target. -/
theorem moveSection_outputs (a : AxisRecord) (e : Int) (r : Section) :
    ((moveSection a e r).output.natAbs ≤ r.output.natAbs ∨ (moveSection a e r).output.natAbs ≤ e.natAbs ∧ 0 <
        (moveSection a e r).output * e) ∧
    (r.output ≠ 0 → (moveSection a e r).output ≠ 0 → (0 < r.output ↔ 0 < (moveSection a e r).output)) := by
  have h := moveSection_spec a e r
  generalize moveSection a e r = r' at *
  rcases Nat.eq_zero_or_pos r.dwell with hd | hd
  · by_cases he : e = r.output
    · have := (h.stands hd he).1
      rw [this]; exact ⟨.inl (le_refl _), fun _ _ => Iff.rfl⟩
    · by_cases ho : r.output = 0
      · by_cases hr : Reversal e r.pendingDir ∧ 1 ≤ a.dwell
        · have := (h.held hd ho hr.1 hr.2).1
          rw [this, ho]; exact ⟨.inl (by simp), fun hc => absurd rfl hc⟩
        · have := (h.starts hd ho (by rw [ho] at he; exact he) hr).1
          refine ⟨?_, fun hc => absurd ho hc⟩
          by_cases hm : min a.accel e.natAbs = 0
          · left; rw [this, hm]; simp
          · right
            rw [this]
            refine ⟨?_, ?_⟩
            · rw [Int.natAbs_mul, Int.natAbs_natCast]
              have : e.sign.natAbs ≤ 1 := by rcases Int.sign_trichotomy e with h | h | h <;> rw [h] <;> simp
              calc _ ≤ 1 * min a.accel e.natAbs := Nat.mul_le_mul_right _ this
                _ ≤ _ := by omega
            · rw [mul_right_comm, Int.sign_mul_self_eq_natAbs]
              exact Int.mul_pos (by omega) (by omega)
      · have hs1 : r.output.sign.natAbs = 1 := Int.natAbs_sign_of_ne_zero ho
        have key : ∀ n : Nat, n ≤ r.output.natAbs → (r.output.sign * (n : Int)).natAbs ≤ r.output.natAbs ∧
            (r.output.sign * (n:Int) ≠ 0 → (0 < r.output ↔ 0 < r.output.sign * (n:Int))) := by
          intro n hn
          refine ⟨by rw [Int.natAbs_mul, hs1]; simpa using hn, ?_⟩
          intro hne
          rcases lt_or_gt_of_ne ho with hh | hh
          · rw [Int.sign_eq_neg_one_of_neg hh]; omega
          · rw [Int.sign_eq_one_of_pos hh] at hne ⊢; omega
        by_cases hp : 0 < r.output * e
        · by_cases hlt : r.output.natAbs < e.natAbs
          · have := (h.grows hd hp hlt).1
            have hes : e.sign = r.output.sign := by
              rcases lt_or_gt_of_ne ho with hh | hh
              · rw [Int.sign_eq_neg_one_of_neg hh]
                have : e < 0 := by by_contra hc; have := Int.mul_nonpos_of_nonpos_of_nonneg (le_of_lt hh) (Int.not_lt.1 hc); omega
                exact Int.sign_eq_neg_one_of_neg this
              · rw [Int.sign_eq_one_of_pos hh]
                have : 0 < e := by by_contra hc; have := Int.mul_nonpos_of_nonneg_of_nonpos (le_of_lt hh) (Int.not_lt.1 hc); omega
                exact Int.sign_eq_one_of_pos this
            have hpos : 0 < min (r.output.natAbs + a.accel) e.natAbs := by omega
            refine ⟨.inr ⟨?_, ?_⟩, ?_⟩
            · rw [this, Int.natAbs_mul, hes, hs1, Int.natAbs_natCast]; omega
            · rw [this, mul_right_comm, Int.sign_mul_self_eq_natAbs]
              exact Int.mul_pos (by omega) (by omega)
            · intro _ _
              rw [this, hes]
              rcases lt_or_gt_of_ne ho with hh | hh
              · rw [Int.sign_eq_neg_one_of_neg hh]; omega
              · rw [Int.sign_eq_one_of_pos hh]; omega
          · by_cases heq : e.natAbs = r.output.natAbs
            · exfalso
              rcases Int.natAbs_eq_natAbs_iff.1 heq with h1 | h1
              · exact he h1
              · rw [h1] at hp
                have := mul_self_nonneg r.output
                rw [mul_neg] at hp; omega
            · have := (h.falls hd hp (by omega)).1
              have hk := key (max (r.output.natAbs - a.decel) e.natAbs) (by omega)
              rw [← this] at hk
              exact ⟨.inl hk.1, fun _ => hk.2⟩
        · by_cases hlt : a.decel < r.output.natAbs
          · have := (h.fallsOn hd ho (by omega) hlt).1
            have hk := key (r.output.natAbs - a.decel) (by omega)
            rw [← this] at hk
            exact ⟨.inl hk.1, fun _ => hk.2⟩
          · have := (h.reaches hd ho (by omega) (by omega)).1
            rw [this]; exact ⟨.inl (by simp), fun _ hc => absurd rfl hc⟩
  · have := (h.dwelling hd).1
    rw [this]; exact ⟨.inl (by simp), fun _ hc => absurd rfl hc⟩

/-- A soft reset leaves every section at rest (R96). -/
theorem softReset_sections (s : State) : (softReset s).shaper.sections = Six.same .atRest := by
  unfold softReset; simp only; split <;> simp

end Sys2Proof.Machine
end

