-- ==== Sys2Proof/Laws/Step.lean ====
section
/-! SUPPORT. The step, and the serving of a request, as the keepers of a property. -/

namespace Sys2Proof.Machine

/-- A step leaves the state, or runs the command at the front of the queue. -/
theorem step_cases {s t : State} (h : step s = .next t) :
    t = s ∨ ∃ c rest, s.pending = c :: rest ∧ exec c { s with pending := rest } = .next t := by
  unfold step at h
  split at h
  · cases h; exact .inl rfl
  · exact .inr ⟨_, _, ‹_›, h⟩

/-- A property that does not look at the queue, and that every command keeps, is kept by every step. -/
theorem step_keeps {P : State → Prop} (hp : ∀ s q, P s → P { s with pending := q })
    (he : ∀ c s t, P s → exec c s = .next t → P t) {s t : State} (hs : P s) (h : step s = .next t) : P t := by
  obtain rfl | ⟨c, rest, _, h⟩ := step_cases h
  · exact hs
  · exact he c _ t (hp s rest hs) h

/-- Serving a request keeps what its decision keeps of the Record Unit. -/
theorem serve_records_keeps {req p d} {s : State} (hs : RecordInv s.records) (hd : ∀ f u, RecordInv u.records →
    RecordInv (d f u).1.records) : RecordInv (serve req p d s).records := by
  unfold serve
  split
  · exact hs
  · simp only
    rename_i frame rest _
    have := hd frame { s with cab := { s.cab with requests := rest } } hs
    split
    · split <;> simpa using this
    · exact hs

/-- Serving a request keeps what its decision keeps of the Table Store. -/
theorem serve_tables_keeps {P : TableStore → Prop} {req p d} {s : State} (hs : P s.tables) (hd : ∀ f u, u.tables =
    s.tables → P (d f u).1.tables) : P (serve req p d s).tables := by
  unfold serve
  split
  · exact hs
  · simp only
    rename_i frame rest _
    have := hd frame { s with cab := { s.cab with requests := rest } } rfl
    split
    · split <;> simpa using this
    · exact hs

/-- Serving a request keeps what its decision keeps of the Demand Unit. -/
theorem serve_demand_keeps {req p d} {s : State} {P : DemandUnit → Prop} (hs : P s.demand) (hd : ∀ f u, u.demand = s.demand
    → P (d f u).1.demand) : P (serve req p d s).demand := by
  unfold serve
  split
  · exact hs
  · simp only
    rename_i frame rest _
    have := hd frame { s with cab := { s.cab with requests := rest } } rfl
    split
    · split <;> simpa using this
    · exact hs

end Sys2Proof.Machine
end

