-- ==== Sys2Proof/Laws/Validation.lean ====
section
/-! SUPPORT. What the check of a word of a shadow accepts, kind by kind. -/

namespace Sys2Proof.Machine

/-- No axis before axis `i` has `n` in word `k` of its record. -/
theorem contains_earlier (ws : Image) (i k n : Nat) : (earlierAxisWords ws i k).contains n = false ↔
    ∀ e < i, fieldAt ws (1 + 9 * e + k) ≠ n := by
  unfold earlierAxisWords
  rw [← Bool.not_eq_true, List.contains_iff_mem]
  simp

/-- The check of a word is its range of 8.2 with its condition of 8.6 (R154). -/
theorem fmtWordOk_iff (ws : Image) {j : Nat} (hj : j < 55) : fmtWordOk ws j = true ↔ FmtWordPasses ws j := by
  unfold fmtWordOk FmtWordPasses
  by_cases h0 : j = 0
  · subst h0
    simp [inRange]
    intro _ _ i hi; omega
  · rw [if_neg h0]
    obtain ⟨i, k, hi, hk, rfl⟩ :
        ∃ i k, i < 6 ∧ k < 9 ∧ j = 1 + 9 * i + k :=
      ⟨(j - 1) / 9, (j - 1) % 9, by omega, by omega, by omega⟩
    have e1 : (1 + 9 * i + k - 1) / 9 = i := by omega
    have e2 : (1 + 9 * i + k - 1) % 9 = k := by omega
    rw [e1, e2]
    simp only
    have key : ∀ P : Nat → Nat → Prop, ((∀ i' < 6, ∀ k' < 9, 1 + 9 * i + k = 1 + 9 * i' + k' → P i' k') ↔ P i k) := by
      intro P
      constructor
      · intro h; exact h i hi k hk rfl
      · intro h i' hi' k' hk' he
        have : i' = i := by omega
        have : k' = k := by omega
        subst i' k'; exact h
    have h1 := contains_earlier ws i 0
    have h8 := contains_earlier ws i 8
    constructor
    · intro h
      refine ⟨fun hh => by omega, fun i' hi' => ?_⟩
      refine ⟨?_, ?_, ?_, ?_, ?_, ?_, ?_, ?_, ?_⟩ <;> intro hh
      all_goals
        have : i' = i := by omega
        subst this
      · have : k = 0 := by omega
        subst this
        simp [fmtAxisWordOk] at h
        rcases h with h | ⟨h, h'⟩
        · exact .inl h
        · exact .inr ⟨h, by simpa using (h1 _).1 (by simpa using h')⟩
      · have : k = 1 := by omega
        subst this; simpa [fmtAxisWordOk] using h
      · have : k = 2 := by omega
        subst this; simpa [fmtAxisWordOk] using h
      · have : k = 3 := by omega
        subst this; simpa [fmtAxisWordOk] using h
      · have : k = 4 := by omega
        subst this; simpa [fmtAxisWordOk, inRange] using h
      · have : k = 5 := by omega
        subst this; simpa [fmtAxisWordOk, inRange] using h
      · have : k = 6 := by omega
        subst this; simpa [fmtAxisWordOk] using h
      · have : k = 7 := by omega
        subst this; simpa [fmtAxisWordOk] using h
      · have : k = 8 := by omega
        subst this
        simp [fmtAxisWordOk] at h
        refine ⟨h.1, fun hn => ?_⟩
        rcases h.2 with h' | ⟨h', h''⟩
        · exact absurd h' hn
        · exact ⟨h', by simpa using (h8 _).1 (by simpa using h'')⟩
    · rintro ⟨-, h⟩
      obtain ⟨a0, a1, a2, a3, a4, a5, a6, a7, a8⟩ := h i hi
      rcases (show k = 0 ∨ k = 1 ∨ k = 2 ∨ k = 3 ∨ k = 4 ∨ k = 5 ∨ k = 6 ∨ k = 7 ∨ k = 8 by omega)
        with rfl | rfl | rfl | rfl | rfl | rfl | rfl | rfl | rfl
      · simp [fmtAxisWordOk]
        rcases a0 rfl with h | ⟨h, h'⟩
        · exact .inl h
        · exact .inr ⟨h, by simpa using (h1 _).2 h'⟩
      · simpa [fmtAxisWordOk] using a1 rfl
      · simpa [fmtAxisWordOk] using a2 rfl
      · simpa [fmtAxisWordOk] using a3 rfl
      · simpa [fmtAxisWordOk, inRange] using a4 rfl
      · simpa [fmtAxisWordOk, inRange] using a5 rfl
      · simpa [fmtAxisWordOk] using a6 rfl
      · simpa [fmtAxisWordOk] using a7 rfl
      · simp [fmtAxisWordOk]
        obtain ⟨b1, b2⟩ := a8 rfl
        refine ⟨b1, ?_⟩
        by_cases hz : fieldAt ws (1 + 9 * i + 8) = 0
        · exact .inl hz
        · exact .inr ⟨(b2 hz).1, by simpa using (h8 _).2 (b2 hz).2⟩

/-- The check of a word is its range of 8.2 with its condition of 8.6 (R155). -/
theorem calWordOk_iff (ws : Image) {j : Nat} (hj : j < 36) : calWordOk ws j = true ↔ CalWordPasses ws j := by
  unfold calWordOk CalWordPasses
  obtain ⟨c, k, hc, hk, rfl⟩ : ∃ c k, c < 6 ∧ k < 6 ∧ j = 6 * c + k := ⟨j / 6, j % 6, by omega, by omega, by omega⟩
  have e2 : (6 * c + k) % 6 = k := by omega
  rw [e2]
  simp only
  constructor
  · intro h c' hc'
    refine ⟨?_, ?_, ?_, ?_, ?_⟩ <;> intro hh
    all_goals
      have : c' = c := by omega
      subst this
    · have : k = 0 := by omega
      subst this; simpa using h
    · have : k = 1 := by omega
      subst this; simpa [inRange] using h
    · have : k = 3 := by omega
      subst this; simpa using h
    · have : k = 4 := by omega
      subst this; simpa using h
    · have : k = 5 := by omega
      subst this; simpa [inRange] using h
  · intro h
    obtain ⟨a0, a1, a3, a4, a5⟩ := h c hc
    rcases (show k = 0 ∨ k = 1 ∨ k = 2 ∨ k = 3 ∨ k = 4 ∨ k = 5 by omega) with rfl | rfl | rfl | rfl | rfl | rfl
    · simpa using a0 rfl
    · simpa [inRange] using a1 rfl
    · rfl
    · simpa using a3 rfl
    · simpa using a4 rfl
    · simpa [inRange] using a5 rfl

/-- A word of an image is below 2^16. -/
theorem fieldAt_lt (ws : Image) (j) : fieldAt ws j < 65536 := (ws.getD j 0).isLt

/-- The check of a word is its range of 8.2 with its condition of 8.6 (R156). -/
theorem bmtWordOk_iff (ws : Image) {j : Nat} (hj : j < 46) : bmtWordOk ws j = true ↔ BmtWordPasses ws j := by
  unfold BmtWordPasses
  simp only
  have := fieldAt_lt ws 3; have := fieldAt_lt ws 4
  by_cases h : j < 13
  · have : ∀ i < 33, j = 13 + i → 50 ≤ fieldAt ws (13 + i) ∧ fieldAt ws (13 + i) ≤ 2000 := by intro i _ _; omega
    rcases (show j = 0 ∨ j = 1 ∨ j = 2 ∨ j = 3 ∨ j = 4 ∨ j = 5 ∨ j = 6 ∨ j = 7 ∨ j = 8 ∨ j = 9 ∨ j = 10 ∨ j = 11 ∨
        j = 12 by omega)
      with rfl | rfl | rfl | rfl | rfl | rfl | rfl | rfl | rfl | rfl | rfl | rfl | rfl
    all_goals simp [bmtWordOk, inRange]
    all_goals first | (intros; omega) | tauto
  · have hb : bmtWordOk ws j = inRange 50 2000 (fieldAt ws j) := by
      unfold bmtWordOk; simp only
      split <;> first | omega | rfl
    rw [hb]
    simp only [inRange, Bool.and_eq_true, decide_eq_true_iff]
    constructor
    · intro h'
      refine ⟨by omega, by omega, by omega, by omega, by omega, by omega, fun i hi he => by subst he; exact h'⟩
    · rintro ⟨-, -, -, -, -, -, h'⟩
      have := h' (j - 13) (by omega) (by omega)
      rw [show 13 + (j - 13) = j by omega] at this
      exact this

/-- The check of a word is its range of 8.2 with its condition of 8.6 (R157). -/
theorem rctWordOk_iff (ws : Image) {j : Nat} (hj : j < 366) : rctWordOk ws j = true ↔ RctWordPasses ws j := by
  unfold RctWordPasses
  simp only
  by_cases h : j < 6
  · rcases (show j = 0 ∨ j = 1 ∨ j = 2 ∨ j = 3 ∨ j = 4 ∨ j = 5 by omega) with rfl | rfl | rfl | rfl | rfl | rfl
    all_goals simp [rctWordOk, inRange]
    all_goals first
      | omega
      | (intros; omega)
      | (intros; refine ⟨?_, ?_, ?_, ?_, ?_⟩ <;> intros <;> omega)
      | (constructor
         · intro h'; exact ⟨by omega, fun s hs => ⟨by omega, by omega, by omega, by omega, by intros; omega⟩⟩
         · rintro ⟨h', -⟩; omega)
  · have hb : rctWordOk ws j =
        if j < 38 then rctSectorWordOk ws ((j - 6) / 4) ((j - 6) % 4) else decide (fieldAt ws j ≤ 30000) := by
      unfold rctWordOk; simp only
      split <;> first | omega | rfl
    rw [hb]
    split
    · obtain ⟨s, k, hs, hk, rfl⟩ : ∃ s k, s < 8 ∧ k < 4 ∧ j = 6 + 4 * s + k :=
        ⟨(j - 6) / 4, (j - 6) % 4, by omega, by omega, by omega⟩
      have e1 : (6 + 4 * s + k - 6) / 4 = s := by omega
      have e2 : (6 + 4 * s + k - 6) % 4 = k := by omega
      rw [e1, e2]
      constructor
      · intro h'
        refine ⟨by omega, by omega, by omega, by omega, by omega, by omega, ?_, ?_⟩
        · intro hh
          have : s = 0 := by omega
          have : k = 0 := by omega
          subst s k; simpa [rctSectorWordOk] using h'
        · intro s' hs'
          refine ⟨?_, ?_, ?_, ?_, fun b hb hh => by omega⟩
          · intro hh h1 h2
            have : s' = s := by omega
            have : k = 0 := by omega
            subst s' k
            simp [rctSectorWordOk] at h'
            rw [if_neg (by omega)] at h'
            omega
          · intro hh
            have : s' = s := by omega
            have : k = 1 := by omega
            subst s' k
            simp [rctSectorWordOk] at h'
            rw [show 7 + 4 * s = 6 + 4 * s + 1 by omega]; exact h'
          · intro hh
            have : s' = s := by omega
            have : k = 2 := by omega
            subst s' k
            simp [rctSectorWordOk] at h'
            rw [show 8 + 4 * s = 6 + 4 * s + 2 by omega]; exact h'
          · intro hh
            have : s' = s := by omega
            have : k = 3 := by omega
            subst s' k
            simp [rctSectorWordOk] at h'
            rw [show 9 + 4 * s = 6 + 4 * s + 3 by omega]; exact h'
      · rintro ⟨-, -, -, -, -, -, g0, g⟩
        obtain ⟨a0, a1, a2, a3, -⟩ := g s hs
        rcases (show k = 0 ∨ k = 1 ∨ k = 2 ∨ k = 3 by omega) with rfl | rfl | rfl | rfl
        · simp only [rctSectorWordOk]
          by_cases hz : s = 0
          · subst hz; simpa using g0 rfl
          · rw [if_neg hz]; split
            · simpa using a0 rfl (by omega) ‹_›
            · rfl
        · simpa [rctSectorWordOk, show 7 + 4 * s = 6 + 4 * s + 1 by omega] using a1 (by omega)
        · simpa [rctSectorWordOk, show 8 + 4 * s = 6 + 4 * s + 2 by omega] using a2 (by omega)
        · simpa [rctSectorWordOk, show 9 + 4 * s = 6 + 4 * s + 3 by omega] using a3 (by omega)
    · rw [decide_eq_true_iff]
      constructor
      · intro h'
        refine ⟨by omega, by omega, by omega, by omega, by omega, by omega, by omega,
        fun s hs => ⟨by omega, by omega, by omega, by omega, fun b hb hh => by rw [← hh]; exact h'⟩⟩
      · rintro ⟨-, -, -, -, -, -, -, g⟩
        have := (g ((j - 38) / 41) (by omega)).2.2.2.2 ((j - 38) % 41) (by omega) (by omega)
        rwa [show 38 + 41 * ((j - 38) / 41) + (j - 38) % 41 = j by omega] at this

/-- The check of a word is its range of 8.2 with its condition of 8.6 (R158). -/
theorem wptWordOk_iff (ws : Image) {j : Nat} (hj : j < 10) : wptWordOk ws j = true ↔ WptWordPasses ws j := by
  unfold WptWordPasses
  simp only
  rcases (show j = 0 ∨ j = 1 ∨ j = 2 ∨ j = 3 ∨ j = 4 ∨ j = 5 ∨ j = 6 ∨ j = 7 ∨ j = 8 ∨ j = 9 by omega)
    with rfl | rfl | rfl | rfl | rfl | rfl | rfl | rfl | rfl | rfl
  all_goals simp [wptWordOk, inRange]

/-- The check of a word of any kind is the range and condition that 8.2 and 8.6 give it. -/
theorem wordOk_iff (k : Kind) (ws : Image) {j : Nat} (hj : j < k.words) : wordOk k ws j = true ↔ WordPasses k ws j := by
  cases k
  · exact fmtWordOk_iff ws hj
  · exact calWordOk_iff ws hj
  · exact bmtWordOk_iff ws hj
  · exact rctWordOk_iff ws hj
  · exact wptWordOk_iff ws hj

end Sys2Proof.Machine
end

