-- ==== Sys2Proof/WellFormed.lean ====
section
/-! DEFINITION. Which commands can come from the outside: a CAN frame carries at most 8 data bytes, an identifier has
11 bits, and an item of the store has the size of an item. -/

namespace Sys2Proof

/-- A CAN data frame carries at most 8 bytes. -/
def dataFits (data : List Byte) : Bool :=
  data.length ≤ 8

/-- What a read-back can find has the word count of an item of the store: one of the five kinds (08, 8.1) or the six
words of the settings record (R168). -/
def Stored.fits : Stored → Bool
  | .image ws _ => ws.length ∈ [55, 36, 46, 366, 10, 6]
  | .emptyMarker => true
  | .spoilt => true

/-- An identifier has 11 bits. -/
def BusFrame.fits : BusFrame → Bool
  | .data id => id < 2048
  | .remote => true
  | .extended => true
  | .own => true

/-- The check of a command's operands. -/
def Instr.wf : Instr → Bool
  | .slewTiltFrame data => dataFits data
  | .demandFrame _ data => dataFits data
  | .requestFrameReceived data => dataFits data
  | .persistItemEnd (some found) => found.fits
  | .filteredFrame _ frame => frame.fits
  | .persistItemEnd none => true
  | .powerOn _ _ | .supplyDip _ _ | .softReset | .scanTimerExpiry | .scanCompletion _ | .slewTimerExpiry => true
  | .demandTimerExpiry | .presenceLineChange | .presenceOpens | .presenceCloses | .serviceKeyLineChange => true
  | .keyLevelChange | .shaperStep | .valveTransmissionEnd | .refreshTimerExpiry | .settleTimerExpiry => true
  | .windowTimerExpiry | .readStatus | .readNotices | .setNoticeMask | .deploy | .stow | .selectAssortment => true
  | .openLoad | .closeLoad | .readTally | .readRecord | .ackRecords | .weighNow | .tare | .cancelWeigh => true
  | .openTable | .writeWords | .readWords | .commit | .discard | .setProtection | .persist | .resetPrepare => true
  | .resetExecute | .unknownRequest | .responseTransmissionEnd | .noticeTransmissionEnd | .canError _ _ => true
  | .portRecovery _ | .portJoin _ | .supplyFallsBelowDipThreshold | .recessiveRunWhileOff _ => true

end Sys2Proof
end

