-- ==== Sys2Proof/Tests/Slice0.lean ====
section
/-! SUPPORT. Tests: the well-formedness checks, single operations against the worked cases of the manual, and for each
statement with hypotheses a witness that meets them, clause by clause at the ends of their ranges. -/

namespace Sys2Proof.Tests

open Sys2Proof.Machine

/-! ## Well-formedness -/

theorem test_wf_long_slew_frame : (Instr.slewTiltFrame [0, 0, 0, 0, 0, 0, 0, 0, 0]).wf = false := by decide
theorem test_wf_long_demand_frame : (Instr.demandFrame .cab [0, 0, 0, 0, 0, 0, 0, 0, 0]).wf = false := by decide
theorem test_wf_long_request_frame : (Instr.requestFrameReceived [0, 0, 0, 0, 0, 0, 0, 0, 0]).wf = false := by decide
theorem test_wf_item_length : (Instr.persistItemEnd (some (.image [0, 0, 0, 0, 0, 0, 0] 0))).wf = false := by decide
theorem test_wf_identifier : (Instr.filteredFrame .cab (.data 2048)).wf = false := by decide
theorem test_wf_full_frame : (Instr.demandFrame .aux [0, 0, 0, 0, 0, 0, 0, 0]).wf = true := by decide

/-! ## States and images to test on -/

/-- A port that is up. -/
def upPort : Port :=
  { Port.afterReset with joined := true }

/-- The state after reset, with both ports on their buses. -/
def up : State :=
  { State.reset with
    cab := { State.reset.cab with port := upPort }
    crane := { State.reset.crane with port := upPort } }

/-- A state in which a request waits. -/
def asking (frame : List Byte) (s : State) : State :=
  { s with cab := { s.cab with requests := [frame] } }

theorem serves {req : Option Request} {frame : List Byte} {s : State} (running : s.power = .running)
    (code : requestOf frame = req) (room : s.cab.responses.length < 4) (noReset : s.mgmt.softResetPending = false) :
    Serving req (asking frame s) frame [] :=
  ⟨running, rfl, code, room, noReset⟩

/-- An axis that drives a section, with the values of 4.10 and 5.10. -/
def axisWords (sec dwell effects role : Word) : Image :=
  [sec, 0, 80, 900, 60, 40, dwell, effects, role]

/-- A function map: axis 1 drives section 0 with dwell 5 and RAISES in its positive direction, axis 2 section 1 with
dwell 0, axis 3 section 2 with the role LIFT, axis 4 section 3 with the role GRAPPLE; the others drive nothing. -/
def fmt : Image :=
  [10] ++ axisWords 0 5 1 0 ++ axisWords 1 0 0 0 ++ axisWords 2 5 1 1 ++ axisWords 3 5 0 2 ++
    axisWords 65535 0 0 0 ++ axisWords 65535 0 0 0

/-- The channel records of the worked cases of 1.8, and four more of ANG_JIB's kind. -/
def cal : Image :=
  [819, 4095, 0, 4000, 10, 245, 819, 4095, 0, 4000, 10, 245, 410, 3686, -900, 900, 10, 245,
   410, 3686, -900, 900, 10, 245, 410, 3686, 0, 2000, 10, 245, 410, 3686, 0, 2000, 10, 245]

/-- The boom members of the worked case of 2.15; lever points 15 and 16 are the case's, and the ends those of 2.6. -/
def bmt : Image :=
  [600, 4200, 3600, 12272, 9445, 2000, 180, 2000, 120, 1600, 60, 1800, 95] ++ 612 :: List.replicate 14 418 ++
    [418, 426] ++ List.replicate 14 426 ++ [352, 340]

/-- The chart of the worked cases of 3.8, with the case's column 36 in each row. -/
def rct : Image :=
  [5, 850, 1000, 950, 500, 150, 0, 0, 0, 15, 450, 1, 0, 25, 1350, 0, 1, 20, 2250, 1, 1, 25, 3150, 0, 0, 15] ++
    List.replicate 12 0 ++
    ([900, 820, 780, 820, 900].map fun c => List.replicate 36 0 ++ [c] ++ List.replicate 4 0).flatten ++
    List.replicate 123 0

/-- The weigh parameters of the worked cases of 6.11. -/
def wpt : Image :=
  [2, 1, 30, 8, 20, 1, 100, 150, 450, 600]

/-- The same with mode BUTTON and no settle delay. -/
def wptButton : Image :=
  [1, 0, 0, 4, 20, 0, 100, 150, 450, 600]

/-- A state with images of all five kinds, the presence level closed, and an ACTIVE crane that CAB owns. -/
def driving : State :=
  { up with
    pins := { up.pins with presenceLine := .closed }
    demand :=
      { up.demand with
        owner := some { source := .cab, neutral := true }, crane := .active, timer := some 150, presence := .closed }
    tables :=
      { up.tables with
        fmt := { active := some fmt, shadow := fmt, dirty := false }
        cal := { active := some cal, shadow := cal, dirty := false }
        bmt := { active := some bmt, shadow := bmt, dirty := false }
        rct := { active := some rct, shadow := rct, dirty := false }
        wpt := { active := some wpt, shadow := wpt, dirty := false } } }

/-- A section record with an output and nothing pending. -/
def moving (output : Int) : Section :=
  { Section.atRest with output := output }

/-- A state with the outputs of the sections of LIFT and GRAPPLE. -/
def withOutputs (lift grapple : Int) (s : State) : State :=
  { s with shaper := { s.shaper with sections := ⟨.atRest, .atRest, moving lift, moving grapple, .atRest, .atRest⟩ } }

/-! ## The worked cases -/

/-- 1.8: conversion of a pressure and an angle. -/
theorem test_engineering_values :
    engineeringValue ⟨819, 4095, 0, 4000, 10, 245⟩ 1876 = 1290 ∧
    engineeringValue ⟨819, 4095, 0, 4000, 10, 245⟩ 700 = 0 ∧
    engineeringValue ⟨410, 3686, -900, 900, 10, 245⟩ 1476 = -315 ∧
    engineeringValue ⟨410, 3686, -900, 900, 10, 245⟩ 3900 = 900 := by decide

/-- 1.8: the third scan out faults a channel. -/
theorem test_channel_faults_at_the_third_scan :
    let c : Channel := { count := 4090, value := some 900, outCount := 2, inCount := 0, faulted := false }
    channelAfter (some cal) 3 4095 c =
      { count := 4095, value := some 900, outCount := 3, inCount := 0, faulted := true } := by decide

/-- 2.6: lookups in the lever curve. -/
theorem test_lever_lookups :
    leverArm bmt 215 = 421 ∧ leverArm bmt 200 = 418 ∧ leverArm bmt (-430) = 612 ∧ leverArm bmt 879 = 341 ∧
      leverArm bmt 905 = 340 := by decide

/-- 2.15: one scan through the stages. -/
theorem test_load_stages :
    let v : Engineering := { pPiston := 1290, pRod := 40, angBoom := 215, angJib := -100, ext := 1000 }
    let r := validLoad v bmt none { slew := 1795, pitch := -60, roll := 12, stale := false }
    r.force = 15453 ∧ r.liftMoment = 6505713 ∧ r.boomArm = 3907 ∧ r.tipArm = 8437 ∧ r.deadMoment = 2193995 ∧
      r.weight = some 511 ∧ r.reach = 9037 ∧ r.band = 36 := by decide +kernel

/-- 3.8: the result rated under sector 2, and with the slew record stale. -/
theorem test_rating :
    ratingOf rct { slew := 1795, pitch := -60, roll := 12, stale := false } 36 (some 511) =
      { sector := 2, tilt := 60, effective := 686, utilisation := 744 } ∧
    ratingOf rct { slew := 1795, pitch := -60, roll := 12, stale := true } 36 (some 511) =
      { sector := 255, tilt := 150, effective := 512, utilisation := 998 } := by decide +kernel

/-- 3.8: a load that crosses the thresholds. -/
theorem test_limiter_thresholds :
    nextLimiterState rct 991 .warn = .warn ∧ nextLimiterState rct 1005 .warn = .limit ∧
      nextLimiterState rct 956 .limit = .limit ∧ nextLimiterState rct 940 .limit = .warn ∧
      nextLimiterState rct 849 .warn = .clear := by decide

/-- 4.10: lever targets from axis bytes. -/
theorem test_lever_targets :
    let a : AxisRecord := fmtAxis fmt 0
    leverTarget a (axisValue 62) = 528 ∧ leverTarget a (axisValue 8) = 0 ∧ leverTarget a (axisValue 9) = 9 ∧
      leverTarget a (axisValue (-128)) = -900 ∧ leverTarget { a with sense := .inverted } (axisValue 45) = -361 := by
  decide

/-- 5.10: the first and the ninth step of a ramp, and the valve byte. -/
theorem test_ramp :
    stepSection (some (fmtAxis fmt 0)) .active .clear 500 528 .atRest =
      { output := 60, cut := false, dwell := 0, pendingDir := .minus } ∧
    stepSection (some (fmtAxis fmt 0)) .active .clear 500 528
        { output := 480, cut := false, dwell := 0, pendingDir := .minus } =
      { output := 528, cut := false, dwell := 0, pendingDir := .minus } ∧
    valveByte 528 = 66 := by decide

/-- 5.10: a limit, and the reversal under it. -/
theorem test_limit_and_reversal :
    stepSection (some (fmtAxis fmt 0)) .active .limit 500 400
        { output := 300, cut := false, dwell := 0, pendingDir := .minus } =
      { output := 260, cut := true, dwell := 0, pendingDir := .minus } ∧
    stepSection (some (fmtAxis fmt 0)) .active .limit 500 (-200)
        { output := 20, cut := false, dwell := 0, pendingDir := .minus } =
      { output := 0, cut := false, dwell := 5, pendingDir := .minus } ∧
    stepSection (some (fmtAxis fmt 0)) .active .limit 500 (-200)
        { output := 0, cut := false, dwell := 1, pendingDir := .minus } =
      { output := 0, cut := false, dwell := 0, pendingDir := .none } := by decide

/-- R26: the entries that the manual prints, and a negative angle and one beyond 900. -/
theorem test_cosine_entries :
    [0, 100, 215, 300, 450, 600, 860, 880, 900, -215, 1200].map cosineAt =
      [16384, 16135, 15244, 14189, 11585, 8192, 1143, 572, 0, 15244, 0] := by decide +kernel

/-- 6.11: means and masses. -/
theorem test_means_and_masses :
    meanOf 4097 8 = 512 ∧ meanOf 4088 8 = 511 ∧ meanOf (-128) 8 = -16 ∧ massOf 511 = 521 ∧ massOf 0 = 0 := by decide

/-- 7.8: the parts of record 1, and the tally after two arrivals; 7.4: bit 7 of byte 6 is 0 whatever the attempts. -/
theorem test_record_parts :
    let w : Weighed :=
      { assortment := 3, mass := 521, reach := 9037, sector := 2, uPeak := 747, samples := 8, attempts := 2,
        unstable := false, clamped := false, staleSlew := false, manual := false }
    let r := completedRecord { State.reset.records with tallyState := .loading } w
    recordPart0 r = [0x01, 0x00, 0x09, 0x02, 0x23, 0x00] ∧
      ((recordPart0 { r with weighed := { w with attempts := 8 } }).getD 4 0).getLsbD 7 = false ∧ recordPart1 r = [0x4D, 0x23, 0xEB, 0x02, 0x02, 0x08] ∧
      sortAt ((({ State.reset.records with tallyState := .loading }).arrive w).arrive { w with mass := 661 }).tally 3 =
        { lifts := 2, mass := 1182 } := by decide +kernel

/-- 8.10: the word sum of the weigh parameters, and the sum of a commit that is refused. -/
theorem test_word_sum :
    wordSum wpt = 1362 ∧ commitRefusal driving.tables .wpt 1300 = some { status := .checksum, data := [0x52, 0x05] } ∧
      commitRefusal driving.tables .wpt 1362 = none := by decide +kernel

/-- 8.10: two axes on one section; the later of the two section words fails. -/
theorem test_two_axes_on_one_section :
    firstBadWord .fmt (fmt.set 28 0) = some 28 ∧ firstBadWord .fmt fmt = none := by decide +kernel

/-- 8.2, 8.6: weigh parameters at both ends of their ranges pass; a band_hi that is not above band_lo fails, and of two
words that fail the first is named. -/
theorem test_weigh_parameter_ranges :
    firstBadWord .wpt [0, 0, 0, 4, 1, 0, 50, 1, 2, 100] = none ∧
      firstBadWord .wpt [2, 1, 200, 32, 500, 5, 500, 999, 1000, 1000] = none ∧
      firstBadWord .wpt [2, 1, 200, 32, 500, 5, 500, 999, 999, 1000] = some 8 ∧
      firstBadWord .wpt [3, 1, 201, 32, 500, 5, 500, 999, 1000, 1000] = some 0 := by decide +kernel

/-- 8.2: the words 10..18 are axis 2's record, and the low byte of its effect word is that of the positive direction. -/
theorem test_axis_record_layout :
    fmtAxis (10 :: List.replicate 9 0 ++ [4, 1, 80, 900, 60, 40, 5, 0x0102, 2] ++ List.replicate 36 65535) 1 =
      { drives := some 4, sense := .inverted, deadband := 80, gain := 900, accel := 60, decel := 40, dwell := 5,
        plusEffect := .lowers, minusEffect := .raises, role := .grapple } := by decide

/-- 9.5: the default set locks an RCT and passes a WPT with mode KEYED and the key open. -/
theorem test_protection :
    let t := { State.reset.tables with mode := .keyed }
    protectionAllows t .rct = false ∧ protectionAllows t .wpt = true ∧
      protectionAllows { t with keyLevel := .closed } .rct = true := by decide

/-- 10.7: the flags CLEARED and RECORD, as READ_NOTICES answers them. -/
theorem test_flags_read : bytes2 (NoticeFlag.cleared.weight ||| NoticeFlag.record.weight).toNat = [0x28, 0x00] := by
  decide

/-- 10.7: the notice after the soft reset of a sampling part. -/
theorem test_notice_after_soft_reset :
    let s := raise .weighFailed { State.reset with limiter := { state := .fault .noData, u := 0 } }
    noticeContent s = [0x80, 0x00, 0, 3, 0, 0] := by decide

/-- No row of the table gives bits, so no word spells a command. -/
theorem test_no_word_spells_a_command (nbits w : Nat) : decodeTableWord nbits w = none := rfl

/-! ## Witnesses: states and operands that meet the hypotheses of each statement -/

theorem witness_StepRunsFrontCommand :
    ({ up with pending := [.shaperStep, .stow] } : State).pending = .shaperStep :: [.stow] ∧ up.pending = [] :=
  ⟨rfl, rfl⟩

theorem witness_SupplyFallHoldsInReset :
    ({ up with power := .heldInReset } : State).power = .heldInReset ∧ (∀ a b, Instr.shaperStep ≠ .powerOn a b) ∧
      (∀ a b, Instr.shaperStep ≠ .supplyDip a b) ∧ Instr.shaperStep ≠ .presenceLineChange ∧
      Instr.shaperStep ≠ .serviceKeyLineChange ∧ Instr.shaperStep ≠ .supplyFallsBelowDipThreshold := by
  refine ⟨rfl, ?_, ?_, ?_, ?_, ?_⟩ <;> intros <;> intro h <;> cases h

theorem witness_RestartResetsEveryBlock :
    (Instr.powerOn true false = .powerOn true false ∧ ResetCause.powerOn = .powerOn) ∧
      (Instr.supplyDip false true = .supplyDip false true ∧ ResetCause.supplyDip = .supplyDip) :=
  ⟨⟨rfl, rfl⟩, rfl, rfl⟩

/-- A settings record at the ends of its ranges, and one with a tare offset beyond its range. -/
def storeWith (tare sum : Word) (s : State) : State :=
  { s with
    tables := { s.tables with stored := { s.tables.stored with settings := .image [2, 31, tare, 4095, 0, 0] sum } } }

theorem witness_StartUpLoadsTheStore :
    (storedAfterFall (storeWith 500 4628 up) .settings = .image [2, 31, 500, 4095, 0, 0] 4628 ∧
      (4628 : Word).toNat = wordSum [2, 31, 500, 4095, 0, 0] ∧ fieldAt [2, 31, 500, 4095, 0, 0] 0 ≤ 2 ∧
      fieldAt [2, 31, 500, 4095, 0, 0] 1 < 32 ∧ fieldAt [2, 31, 500, 4095, 0, 0] 3 < 4096 ∧
      -500 ≤ signedFieldAt [2, 31, -500, 4095, 0, 0] 2 ∧ signedFieldAt [2, 31, 500, 4095, 0, 0] 2 ≤ 500) ∧
    (∀ ws sum, storedAfterFall (storeWith 501 4629 up) .settings = .image ws sum →
      ¬ (ws.length = 6 ∧ sum.toNat = wordSum ws ∧ fieldAt ws 0 ≤ 2 ∧ fieldAt ws 1 < 32 ∧ fieldAt ws 3 < 4096 ∧
        -500 ≤ signedFieldAt ws 2 ∧ signedFieldAt ws 2 ≤ 500)) := by
  refine ⟨by decide, fun ws sum h => ?_⟩
  cases h
  decide

/-- A RESET_EXECUTE response in flight, with its soft reset pending. -/
def ending (s : State) : State :=
  { s with
    cab := { s.cab with responses := [[0x61, 0, 0, 0, 0, 0, 0, 0]], flight := some (.response 0x5D3) }
    mgmt := { s.mgmt with softResetPending := true } }

theorem witness_SoftResetTakesPlace :
    let s := ending up
    (s.power = .running ∧ s.cab.port.mode = .active ∧ s.cab.port.joined = true ∧ s.cab.flight = some (.response 0x5D3) ∧
      s.cab.responses = [[0x61, 0, 0, 0, 0, 0, 0, 0]] ∧ byteAt [0x61, 0, 0, 0, 0, 0, 0, 0] 0 = 0x61 ∧
      byteAt [0x61, 0, 0, 0, 0, 0, 0, 0] 1 = 0 ∧ s.mgmt.softResetPending = true) ∧
    (∀ k, (s.shaper.sections.get k).output = 0) ∧
    (∃ k, ((withOutputs 1 0 s).shaper.sections.get k).output ≠ 0) := by
  refine ⟨by decide, by decide, 2, by decide⟩

/-- A scan in progress under the images of the worked cases. -/
def scanning : State :=
  { driving with
    scan := { driving.scan with inProgress := some { cal := some cal, bmt := some bmt, rct := some rct } } }

theorem witness_ScanUnitTimers :
    driving.scan.inProgress = none ∧ scanning.scan.inProgress = some { cal := some cal, bmt := some bmt, rct := some rct } ∧
      scanning.power = .running ∧
      ({ up with scan := { up.scan with slewTimer := some 200 } } : State).scan.slewTimer = some 200 :=
  ⟨rfl, rfl, rfl, rfl⟩

/-- The coarse values 9, 10, 245 and 246 lie at the ends of the window 10..245. -/
theorem witness_ScanWritesChannelRecords :
    scanning.power = .running ∧ (signedFieldAt cal 2 ≤ signedFieldAt cal 3 ∧ fieldAt cal 1 ≠ fieldAt cal 0) ∧
      (159#12).toNat / 16 < fieldAt cal 4 ∧ fieldAt cal 4 ≤ (160#12).toNat / 16 ∧
      (3935#12).toNat / 16 ≤ fieldAt cal 5 ∧ fieldAt cal 5 < (3936#12).toNat / 16 ∧
      (let s : State := { scanning with scan := { scanning.scan with inProgress := some ⟨none, none, none⟩ } }
       s.power = .running ∧ s.scan.inProgress = some { cal := none, bmt := none, rct := none }) := by
  refine ⟨rfl, by decide, by decide, by decide, by decide, by decide, rfl, rfl⟩

theorem witness_ScanHandsOverOneRecord :
    scanning.power = .running ∧
      scanning.scan.inProgress = some { cal := some cal, bmt := some bmt, rct := some rct } ∧
      (let atThird := Six.same { State.reset.scan.channels.s0 with outCount := 2 }
       (∃ i, ((channelsAfter (some cal) (Six.same 0) atThird).get i).faulted ≠ (atThird.get i).faulted) ∧
        ∀ i, ((channelsAfter (some cal) (Six.same 2000) atThird).get i).faulted = (atThird.get i).faulted) :=
  ⟨rfl, rfl, ⟨0, by decide⟩, by decide⟩

/-- The angle 3599 is accepted and 3600 is not; 6 bytes are too few and 7 enough. -/
theorem witness_SlewFrameAcceptedOrDiscarded :
    ({ upPort with mode := .off } : Port).mode = .off ∧ State.reset.crane.port.joined = false ∧
      (up.power = .running ∧ up.crane.port.mode = .active ∧ up.crane.port.joined = true) ∧
      ([0x0F, 0x0E, 0, 0, 0, 0] : List Byte).length < 7 ∧
      (byteAt [0x0F, 0x0E, 0, 0, 0, 0, 2] 6).toNat % 2 = 0 ∧
      3600 ≤ (byteAt [0x10, 0x0E, 0, 0, 0, 0, 1] 0).toNat + 256 * (byteAt [0x10, 0x0E, 0, 0, 0, 0, 1] 1).toNat ∧
      (let d : List Byte := [0x0F, 0x0E, 0, 0, 0, 0, 1]
       7 ≤ d.length ∧ (byteAt d 6).toNat % 2 = 1 ∧ (byteAt d 0).toNat + 256 * (byteAt d 1).toNat < 3600) := by
  decide

/-- A scan record of the worked case of 2.15, with the given marks. -/
def scanRecord (v3 v4 supply : Bool) : ScanRecord :=
  { values := some { pPiston := 1290, pRod := 40, angBoom := 215, angJib := -100, ext := 1000 }
    valid := ⟨true, true, true, v3, v4, true⟩, supplyFaulted := supply, bmt := some bmt, rct := some rct
    slew := { slew := 1795, pitch := -60, roll := 12, stale := false } }

theorem witness_LoadResultValidity :
    ({ scanRecord true true false with values := none } : ScanRecord).values = none ∧
      ({ scanRecord true true false with bmt := none } : ScanRecord).bmt = none ∧
      (scanRecord true true true).supplyFaulted = true ∧ (scanRecord false true false).valid.get 3 = false ∧
      ((scanRecord true false false).valid.get 4 = false ∧ 0 < fieldAt bmt 5) ∧
      ((scanRecord true true false).supplyFaulted = false ∧
        (∀ i : Fin 4, (scanRecord true true false).valid.get (i.castLE (by omega)) = true) ∧
        (scanRecord true true false).valid.get 4 = true) ∧
      ((scanRecord true false false).valid.get 4 = false ∧ fieldAt (bmt.set 5 0) 5 = 0) := by decide

/-- With both arms of 250 mm at α = β = 0 the tip arm is 500 mm; with one of 249 mm it is 499 mm. -/
theorem witness_LoadStagesLieInTheirRanges :
    imageOk .bmt bmt = true ∧ (900 : Int) ≤ 900 ∧
      (let level : Engineering := { pPiston := 0, pRod := 0, angBoom := 0, angJib := 0, ext := 0 }
       let arms := fun n : Word => validLoad level ((bmt.set 1 250).set 2 n) (some rct) State.reset.scan.slew
       500 ≤ (arms 250).tipArm ∧ (arms 249).tipArm < 500) := by decide +kernel

theorem witness_LeverArmFollowsTheCurve :
    (-400 : Int) ≤ -400 ∧ (880 : Int) ≤ 880 ∧ (-400 + 40 * ((0 : Nat) : Int) ≤ -400 ∧ (-400 : Int) < -400 + 40 * (0 + 1)) ∧
      (-400 + 40 * ((31 : Nat) : Int) ≤ 879 ∧ (879 : Int) < -400 + 40 * (31 + 1)) := by decide

theorem witness_SectorAndStaleRating :
    1 ≤ fieldAt rct 0 ∧ fieldAt rct 0 ≤ 8 ∧ fieldAt rct 6 = 0 ∧
      (∀ s, 1 ≤ s → s < fieldAt rct 0 → fieldAt rct (6 + 4 * (s - 1)) < fieldAt rct (6 + 4 * s)) ∧
      State.reset.scan.slew.stale = true ∧ (scanRecord true true false).slew.stale = false ∧
      ([0, 450, 1350, 2250].map (sectorOf rct) = [0, 1, 2, 3] ∧
        [0, 1, 2, 3].map (fun s => (fieldAt rct (7 + 4 * s), fieldAt rct (8 + 4 * s))) = [(0, 0), (1, 0), (0, 1), (1, 1)]) ∧
      (let q := ratingOf (rct.set 9 1000) { slew := 0, pitch := 10, roll := 0, stale := false } 36 none
       1000 ≤ fieldAt (rct.set 9 1000) 9 * q.tilt / 10 ∧ fieldAt (rct.set 9 1000) 9 * q.tilt / 10 ≤ 1000) := by
  refine ⟨by decide, by decide, by decide, fun s h1 h2 => ?_, rfl, rfl, by decide +kernel, by decide +kernel⟩
  have h2 : s < 5 := h2
  have : s = 1 ∨ s = 2 ∨ s = 3 ∨ s = 4 := by omega
  rcases this with rfl | rfl | rfl | rfl <;> decide

theorem witness_UtilisationByFirstCase : (0 < 1 ∧ (0 : Int) ≤ 0) ∧ (0 < 1 ∧ 0 < 1) := by decide

/-- A VALID result with a utilisation, and one without a rating. -/
def validAt (u : Option Nat) : ValidLoad :=
  { pPist := 0, pRod := 0, alpha := 0, beta := 0, ext := 0, force := 0, lever := 50, liftMoment := 0, boomArm := 0,
    tipArm := 500, deadMoment := 0, weight := some 511, reach := 500, band := 2
    rating := u.map fun u => { sector := 2, tilt := 0, effective := 686, utilisation := u }
    slewStale := false }

/-- The thresholds 850, 1000 and 950 of the chart, and a value on each side of each. -/
theorem witness_LimiterEvaluation :
    (validAt none).rating = none ∧
      (validAt (some 1000)).rating = some { sector := 2, tilt := 0, effective := 686, utilisation := 1000 } ∧
      (fieldAt rct 2 ≤ 1000) ∧ (fieldAt rct 1 ≤ 999 ∧ 999 < fieldAt rct 2) ∧ (fieldAt rct 1 ≤ 850 ∧ 850 < fieldAt rct 2) ∧
      (849 < fieldAt rct 1 ∧ 849 < fieldAt rct 2) ∧ (fieldAt rct 3 ≤ 950) ∧ (949 < fieldAt rct 3 ∧ fieldAt rct 1 ≤ 949) ∧
      (849 < fieldAt rct 3 ∧ 849 < fieldAt rct 1) ∧ LimiterState.clear ≠ .limit ∧
      (let crossed := (rct.set 1 999).set 2 900
       fieldAt crossed 2 ≤ 900 ∧ 998 < fieldAt crossed 1 ∧ fieldAt crossed 3 ≤ 998) := by decide

theorem witness_LimiterRaisesItsEntryFlag :
    let l := fun (x : LimiterState) (r : LoadResult) => (({ state := x, u := 0 } : Limiter).evaluate (some rct) r).state
    (LimiterState.code (.fault .noData) = (l (.fault .noData) (.invalid .sensor false)).code) ∧
      (LimiterState.code .warn ≠ (l .warn (.valid (validAt (some 1000)))).code ∧
        l .warn (.valid (validAt (some 1000))) = .limit) ∧
      l .clear (.valid (validAt (some 850))) = .warn ∧ l .warn (.valid (validAt (some 849))) = .clear ∧
      (l .clear (.valid (validAt none))).code = 3 := by decide

theorem witness_LeverTargetsAndNeutrality :
    let a := fmtAxis fmt 0
    (80 : Int).natAbs ≤ a.deadband ∧ a.deadband < (81 : Int).natAbs ∧ 0 < leverTarget a 90 ∧ leverTarget a (-90) < 0 ∧
      a.deadband < 1000 ∧ (-1000 : Int).natAbs = 1000 ∧ isNeutral (some fmt) (Six.same 80) = true ∧
      ((fmtAxis fmt 3).drives = some 3 ∧ ∀ j, (fmtAxis fmt j).drives = some 3 → j = 3) ∧
      ∀ i, (fmtAxis fmt i).drives ≠ some 5 := by decide

/-- A seven-byte demand frame: axis 1 at 9 percent or at its deadband of 8, with TAKE and WEIGH. -/
def demand (percent buttons : Byte) : List Byte :=
  [percent, 0, 0, 0, 0, 0, buttons]

/-- The driving state with a crane state, a previous WEIGH of CAB and weigh parameters. -/
def drivenBy (crane : CraneState) (pressed : Bool) (params : Option Image) : State :=
  { driving with
    demand := { driving.demand with crane := crane, weighCab := pressed }
    tables := { driving.tables with wpt := { driving.tables.wpt with active := params } } }

theorem witness_OwnerFrameIsTakenWhole :
    (driving.power = .running ∧ driving.cab.port.mode = .active ∧ driving.cab.port.joined = true ∧
      7 ≤ (demand 8 2).length ∧ driving.demand.owner = some { source := .cab, neutral := true }) ∧
    (let s := drivenBy .ready false none
     s.demand.crane = .ready ∧ isNeutral s.tables.fmt.active (axisValues (demand 8 0)) = true ∧
      s.demand.presence = .closed ∧ s.tables.fmt.active ≠ none ∧ s.crane.port.mode = .active ∧
      s.crane.port.joined = true) ∧
    isNeutral driving.tables.fmt.active (axisValues (demand 9 0)) = false ∧
    (let s := drivenBy .active false (some wptButton)
     s.demand.prevWeigh .cab = false ∧ (byteAt (demand 9 2) 6).getLsbD 1 = true ∧
      s.tables.wpt.active = some wptButton ∧ (wptParams wptButton).trigger = .button ∧ s.weigh.phase = .idle) ∧
    (drivenBy .active true (some wptButton)).demand.prevWeigh .cab = true ∧
    (byteAt (demand 9 0) 6).getLsbD 1 = false ∧ (wptParams wpt).trigger ≠ .button := by
  refine ⟨by decide, ⟨rfl, by decide, rfl, by simp [drivenBy, driving], rfl, rfl⟩, by decide, by decide, by decide,
    by decide, by decide⟩

theorem witness_GrantedTakeGoesThroughReady :
    (driving.power = .running ∧ driving.cab.port.mode = .active ∧ driving.cab.port.joined = true ∧
      7 ≤ (demand 9 1).length ∧ (byteAt (demand 9 1) 6).getLsbD 0 = true) ∧
    up.demand.owner = none ∧
    (driving.demand.owner = some { source := .cab, neutral := true } ∧ DemandSource.cab ≠ .aux) := by decide

theorem witness_OtherDemandFramesAreDropped :
    (({ upPort with mode := .off } : Port).mode = .off ∧ State.reset.cab.port.joined = false) ∧
    (driving.power = .running ∧ driving.cab.port.mode = .active ∧ driving.cab.port.joined = true) ∧
      ([9, 0, 0, 0, 0, 0] : List Byte).length < 7 ∧ 7 ≤ (demand 9 0).length ∧
      (∀ o, driving.demand.owner = some o → o.source ≠ .aux) ∧ (byteAt (demand 9 0) 6).getLsbD 0 = false ∧
      (let s : State := { driving with demand := { driving.demand with owner := some ⟨.cab, false⟩ } }
       ∃ o, s.demand.owner = some o ∧ o.source ≠ .aux ∧ o.neutral = false) := by
  refine ⟨by decide, by decide, by decide, by decide, ?_, by decide, ⟨.cab, false⟩, rfl, by decide, rfl⟩
  intro o h
  cases h
  decide

theorem witness_DemandTimerEndsOwnership : driving.power = .running ∧ driving.demand.timer = some 150 := by decide

theorem witness_LinesAndFilteredLevels :
    (let s : State := { up with pins := { up.pins with presenceLine := .closed, serviceKeyLine := .closed } }
     s.power = .running ∧ s.demand.presence = .opened ∧ s.pins.presenceLine = .closed ∧
      s.tables.keyLevel ≠ s.pins.serviceKeyLine ∧ s.demand.crane ≠ .held ∧
      ({ s with demand := { s.demand with crane := .held } } : State).demand.crane = .held) ∧
    Level.other up.pins.presenceLine ≠ up.demand.presence ∧
    Level.other driving.pins.presenceLine ≠ driving.demand.presence ∧
    (let s : State := { driving with pins := { driving.pins with presenceLine := .opened } }
     Level.other s.pins.presenceLine = s.demand.presence) := by decide

/-- The presence line opened while the level is closed, with an output on section 0 (dwell 5) and on section 1
(dwell 0). -/
def leaving : State :=
  { driving with
    pins := { driving.pins with presenceLine := .opened }
    shaper := { driving.shaper with sections := ⟨moving 40, moving (-40), .atRest, .atRest, moving 8, .atRest⟩ } }

theorem witness_PresenceOpensHoldsAndZeroes :
    leaving.power = .running ∧ leaving.demand.presence = .closed ∧ leaving.pins.presenceLine = .opened ∧
      leaving.demand.crane = .active ∧ sectionAxis (some fmt) 4 = none ∧ (leaving.shaper.sections.get 2).output = 0 ∧
      (sectionAxis (some fmt) 0 = some (fmtAxis fmt 0) ∧ (leaving.shaper.sections.get 0).output ≠ 0 ∧
        (fmtAxis fmt 0).dwell ≠ 0) ∧
      (sectionAxis (some fmt) 1 = some (fmtAxis fmt 1) ∧ (leaving.shaper.sections.get 1).output ≠ 0 ∧
        (fmtAxis fmt 1).dwell = 0) := by decide

theorem witness_DeployAndStow :
    Serving (some .deploy) (asking [0x10] up) [0x10] [] ∧ Serving (some .stow) (asking [0x11] driving) [0x11] [] ∧
      up.demand.crane = .stowed ∧ up.demand.presence = .opened ∧
      ({ up with demand := { up.demand with presence := .closed } } : State).demand.presence = .closed ∧
      driving.demand.crane ≠ .stowed :=
  ⟨serves rfl rfl (by decide) rfl, serves rfl rfl (by decide) rfl, rfl, rfl, rfl, by decide⟩

theorem witness_StepMovesSectionsAndRequests :
    up.power = .running ∧ driving.tables.rct.active ≠ none ∧ up.tables.rct.active = none ∧
      (∀ k, ((sectionsAfterStep up).get k).output = (up.shaper.sections.get k).output) ∧
      (∃ k, ((sectionsAfterStep (withOutputs 300 0 up)).get k).output ≠
        ((withOutputs 300 0 up).shaper.sections.get k).output) := by
  refine ⟨rfl, by simp [driving], rfl, by decide, 2, by decide⟩

/-- A valve command frame in flight. -/
def sending (waiting : Bool) : State :=
  { up with
    crane := { up.crane with flight := some { id := 0x2C4, content := [0, 0, 0, 0, 0, 0, 12] } }, valve := { up.valve with pending := waiting } }

theorem witness_ValveEndsAndRefreshes :
    (sending true).power = .running ∧ (sending true).crane.port.mode = .active ∧
      (sending true).crane.port.joined = true ∧ (sending true).crane.flight = some { id := 0x2C4, content := [0, 0, 0, 0, 0, 0, 12] } ∧
      (sending true).valve.pending = true ∧ (sending false).valve.pending = false ∧
      up.valve.refreshTimer = some 100 := by decide

theorem witness_FrameContents :
    let s := withOutputs 1000 (-1000) up
    (-1000 ≤ (s.shaper.sections.get 3).output) ∧ (s.shaper.sections.get 2).output ≤ 1000 ∧
      ({ up.limiter with u := 65535 } : Limiter).u < 65536 := by decide

/-- A cycle of a purpose in its attempt of a number, with an attempt that has counted a sample or none. -/
def cycleOf (purpose : Purpose) (attempt : Nat) (params : Image) (seen : Option Seen) : Machine.Cycle :=
  { purpose := purpose, source := .request, params := wptParams params, assortment := 3, attempt := attempt
    current :=
      { sum := 511, n := if seen.isSome then 1 else 0, seen := seen, uPeak := 744, staleSeen := false,
        skipScan := false }
    kept := none }

/-- What an attempt has seen of a sample of 511 daN. -/
def seenOnce : Seen :=
  { min := 511, max := 511, lastR := 9037, lastSector := 2 }

/-- The driving state with a cycle in SETTLING or in SAMPLING. -/
def settling (c : Machine.Cycle) : State :=
  { driving with weigh := { driving.weigh with phase := .settling c, settleTimer := some 300 } }

/-- The driving state with a cycle in SAMPLING. -/
def sampling (c : Machine.Cycle) : State :=
  { driving with weigh := { driving.weigh with phase := .sampling c, windowTimer := some 1000 } }

/-- The attempt at the number of retries retries, and the one beyond it ends the cycle. -/
theorem witness_CycleTimers :
    (let c := cycleOf .weigh 1 wpt (some seenOnce)
     (settling c).power = .running ∧ (settling c).weigh.phase = .settling c ∧
      (settling c).weigh.settleTimer = some 300 ∧ (sampling c).weigh.phase = .sampling c ∧
      (sampling c).weigh.windowTimer = some 1000 ∧ c.current.seen = some seenOnce ∧ c.attempt ≤ c.params.retries ∧
      c.params.settle = .each ∧ 1 ≤ c.params.settleDelay) ∧
    (let c := cycleOf .weigh 1 (wpt.set 1 0) none
     c.current.seen = none ∧ c.attempt ≤ c.params.retries ∧ c.params.settle = .first) ∧
    (cycleOf .weigh 1 (wpt.set 2 0) none).params.settleDelay = 0 ∧
    (let c := cycleOf .weigh 2 wpt (some seenOnce)
     c.params.retries < c.attempt ∧ c.purpose = .weigh ∧ c.current.seen = some seenOnce) ∧
    (let c := cycleOf .tare 2 wpt (some seenOnce)
     c.params.retries < c.attempt ∧ c.purpose = .tare ∧ c.current.seen = some seenOnce) ∧
    (let c := cycleOf .tare 2 wpt none
     c.params.retries < c.attempt ∧ c.current.seen = none ∧ c.kept = none) := by decide

/-- The LIFT outputs 149, 150, 450 and 451 lie at the ends of the lift band 150..450; with 8 samples to count, the eighth
ends the attempt. -/
theorem witness_SamplesAndStability :
    let c := cycleOf .weigh 1 wpt (some seenOnce)
    let counted := fun (n : Nat) (purpose : Purpose) => ({ c with purpose := purpose, current := { c.current with n := n } } : Machine.Cycle)
    ({ c.current with skipScan := true } : Attempt).skipScan = true ∧ c.current.skipScan = false ∧
      ({ validAt none with weight := none } : ValidLoad).weight = none ∧ (validAt none).weight = some 511 ∧
      roleOutput (withOutputs 149 0 (sampling c)) .lift < c.params.bandLo ∧
      (c.params.bandLo : Int) ≤ roleOutput (withOutputs 150 0 (sampling c)) .lift ∧
      roleOutput (withOutputs 450 0 (sampling c)) .lift ≤ c.params.bandHi ∧
      (c.params.bandHi : Int) < roleOutput (withOutputs 451 0 (sampling c)) .lift ∧
      (counted 6 .weigh).current.n + 1 ≠ c.params.nSamples ∧ (counted 7 .weigh).current.n + 1 = c.params.nSamples ∧
      max seenOnce.max 531 - min seenOnce.min 531 ≤ (c.params.stabilityBand : Int) ∧
      ¬ max seenOnce.max 532 - min seenOnce.min 532 ≤ (c.params.stabilityBand : Int) ∧
      (c.params.stabilityBand : Int) < max seenOnce.max 532 - min seenOnce.min 532 ∧
      (-500 ≤ meanOf (-4000) 8 ∧ meanOf 4000 8 ≤ 500) ∧ (meanOf (-4008) 8 < -500 ∧ 500 < meanOf 4008 8) ∧
      ((counted 7 .weigh).attempt ≤ (counted 7 .weigh).params.retries ∧ c.params.settle = .each ∧
        1 ≤ c.params.settleDelay) ∧
      (cycleOf .weigh 1 (wpt.set 1 0) none).params.settle = .first ∧
      (cycleOf .weigh 2 wpt none).params.retries < (cycleOf .weigh 2 wpt none).attempt := by decide

/-- The GRAPPLE output crosses −600 from above; 600 disarms and 599 does not. -/
theorem witness_AutoArmsDisarmsAndFires :
    let p := wptParams wpt
    driving.tables.wpt.active = some wpt ∧ p.trigger = .auto ∧
      roleOutput (withOutputs 0 (-600) driving) .grapple ≤ -(p.closeThreshold : Int) ∧
      -(p.closeThreshold : Int) < -599 ∧ -(p.closeThreshold : Int) < roleOutput (withOutputs 0 (-599) driving) .grapple ∧
      (p.closeThreshold : Int) ≤ roleOutput (withOutputs 0 600 driving) .grapple ∧
      roleOutput (withOutputs 150 599 driving) .grapple < p.closeThreshold ∧
      (p.bandLo : Int) ≤ roleOutput (withOutputs 150 599 driving) .lift ∧
      roleOutput (withOutputs 450 599 driving) .lift ≤ p.bandHi ∧ driving.demand.crane = .active ∧
      roleOutput (withOutputs 149 0 driving) .lift < p.bandLo ∧ (wptParams wptButton).trigger ≠ .auto ∧
      ({ driving.weigh with phase := .armed } : WeighUnit).phase = .armed ∧ driving.weigh.phase = .idle ∧
      (driving.tables.fmt.active = some fmt ∧ (fmtAxis fmt 2).role = .lift ∧ (fmtAxis fmt 2).drives = some 2 ∧
        ∀ j, (fmtAxis fmt j).role = .lift → j = 2) ∧
      (∀ j, (fmtAxis (fmt.set 27 0) j).role ≠ .lift) ∧ up.tables.fmt.active = none ∧
      (up.weigh.phase = .idle ∧ up.tables.wpt.active = none) ∧
      (settling (cycleOf .weigh 1 wpt none)).weigh.phase = .settling (cycleOf .weigh 1 wpt none) := by
  refine ⟨rfl, ?_⟩
  decide

theorem witness_WeighRequests :
    Serving (some .weighNow) (asking [0x30] driving) [0x30] [] ∧ Serving (some .tare) (asking [0x31] driving) [0x31] [] ∧
      Serving (some .cancelWeigh) (asking [0x32] driving) [0x32] [] ∧ up.tables.wpt.active = none ∧
      driving.tables.wpt.active = some wpt ∧ driving.weigh.phase = .idle ∧ driving.demand.crane = .active ∧
      1 ≤ (wptParams wpt).settleDelay ∧ (wptParams wptButton).settleDelay = 0 ∧
      (let c := cycleOf .weigh 1 wpt none
       (settling c).weigh.phase = .settling c ∧ (sampling c).weigh.phase = .sampling c) ∧
      (drivenBy .ready false (some wpt)).demand.crane ≠ .active ∧
      ({ driving.weigh with phase := .armed } : WeighUnit).phase = .armed :=
  ⟨serves rfl rfl (by decide) rfl, serves rfl rfl (by decide) rfl, serves rfl rfl (by decide) rfl, rfl, rfl, rfl, rfl,
    by decide, by decide, ⟨rfl, rfl⟩, by decide, rfl⟩

theorem witness_MeanAndMassAreRounded : 1 ≤ 1 ∧ (0 : Int) ≤ 0 ∧ 33267 ≤ 33267 := by decide

/-- A lift record of a number, as in 7.8. -/
def liftRecord (number : Nat) : LiftRecord :=
  completedRecord { State.reset.records with nextNumber := number }
    { assortment := 3, mass := 521, reach := 9037, sector := 2, uPeak := 747, samples := 8, attempts := 2,
      unstable := false, clamped := false, staleSlew := false, manual := false }

theorem witness_RecordArrival :
    up.records.tally.length = 16 ∧ ({ up.records with nextNumber := 65535 } : RecordUnit).nextNumber = 65535 ∧
      up.records.nextNumber ≠ 65535 ∧ 4 ≠ (3 : Fin 16).val ∧
      up.records.tally[(3 : Fin 16).val]? = some { lifts := 0, mass := 0 } ∧ up.records.tallyState = .closed ∧
      (up.records.openLoad .loading).tallyState = .loading ∧ (up.records.openLoad .unloading).tallyState = .unloading ∧
      (List.replicate 47 (liftRecord 1)).length < 48 ∧ 48 ≤ (List.replicate 48 (liftRecord 1)).length := by decide

/-- A state whose queue holds the records 1 to 3. -/
def threeRecords : State :=
  { up with records := { up.records with queue := [liftRecord 1, liftRecord 2, liftRecord 3] } }

theorem witness_RecordReadsAndAcknowledgement :
    Serving (some .readRecord) (asking [0x24, 2, 1] threeRecords) [0x24, 2, 1] [] ∧
      Serving (some .readTally) (asking [0x23, 16] threeRecords) [0x23, 16] [] ∧
      Serving (some .ackRecords) (asking [0x25, 2, 0] threeRecords) [0x25, 2, 0] [] ∧
      1 < (byteAt [0x24, 0, 2] 2).toNat ∧ threeRecords.records.queue.length ≤ (byteAt [0x24, 3, 1] 1).toNat ∧
      threeRecords.records.queue[(byteAt [0x24, 2, 1] 1).toNat]? = some (liftRecord 3) ∧
      up.records.tally[(byteAt [0x23, 15] 1).toNat]? = some { lifts := 0, mass := 0 } ∧
      17 ≤ (byteAt [0x23, 17] 1).toNat ∧
      (∀ r ∈ threeRecords.records.queue, r.number ≠ (byteAt [0x25, 4, 0] 1).toNat + 256 * (byteAt [0x25, 4, 0] 2).toNat) ∧
      (threeRecords.records.queue = [liftRecord 1] ++ liftRecord 2 :: [liftRecord 3] ∧ (liftRecord 2).number = 2 ∧
        (liftRecord 1).number ≠ 2) :=
  ⟨serves rfl rfl (by decide) rfl, serves rfl rfl (by decide) rfl, serves rfl rfl (by decide) rfl, by decide, by decide,
    rfl, rfl, by decide, by decide, rfl, rfl, by decide⟩

theorem witness_AssortmentAndLoadRequests :
    Serving (some .selectAssortment) (asking [0x20, 15] up) [0x20, 15] [] ∧
      Serving (some .openLoad) (asking [0x21, 2] up) [0x21, 2] [] ∧ Serving (some .closeLoad) (asking [0x22] up) [0x22] [] ∧
      (byteAt [0x20, 15] 1).toNat = (15 : Fin 16).val ∧ 16 ≤ (byteAt [0x20, 16] 1).toNat ∧
      (byteAt [0x21, 1] 1).toNat = 1 ∧ (byteAt [0x21, 2] 1).toNat = 2 ∧
      ((byteAt [0x21, 3] 1).toNat ≠ 1 ∧ (byteAt [0x21, 3] 1).toNat ≠ 2) :=
  ⟨serves rfl rfl (by decide) rfl, serves rfl rfl (by decide) rfl, serves rfl rfl (by decide) rfl, by decide, by decide,
    by decide, by decide, by decide⟩

theorem witness_OpenTableAndDiscard :
    Serving (some .openTable) (asking [0x40, 5, 9, 0] up) [0x40, 5, 9, 0] [] ∧
      Serving (some .discard) (asking [0x44, 1] up) [0x44, 1] [] ∧ (byteAt [0x40, 0] 1).toNat = 0 ∧
      5 < (byteAt [0x40, 6] 1).toNat ∧ Kind.code .wpt = (byteAt [0x40, 5, 9, 0] 1).toNat ∧
      Kind.words .wpt ≤ (byteAt [0x40, 5, 10, 0] 2).toNat + 256 * (byteAt [0x40, 5, 10, 0] 3).toNat ∧
      (byteAt [0x40, 5, 9, 0] 2).toNat + 256 * (byteAt [0x40, 5, 9, 0] 3).toNat < Kind.words .wpt ∧
      Kind.code .fmt = (byteAt [0x44, 1] 1).toNat :=
  ⟨serves rfl rfl (by decide) rfl, serves rfl rfl (by decide) rfl, by decide, by decide, by decide, by decide,
    by decide, by decide⟩

/-- A state with the cursor at an index of the WPT. -/
def cursorAt (index : Nat) (s : State) : State :=
  { s with tables := { s.tables with cursorKind := .wpt, cursorIndex := index } }

theorem witness_WriteWordsFillsTheShadow :
    Serving (some .writeWords) (asking [0x41, 3, 1, 0, 2, 0, 3, 0] (cursorAt 9 up)) [0x41, 3, 1, 0, 2, 0, 3, 0] [] ∧
      (byteAt [0x41, 0] 1).toNat = 0 ∧ 3 < (byteAt [0x41, 4] 1).toNat ∧
      (1 ≤ (byteAt [0x41, 1] 1).toNat ∧ (byteAt [0x41, 3] 1).toNat ≤ 3 ∧
        ((cursorAt 9 up).tables.kind .wpt).shadow.length = Kind.words .wpt) :=
  ⟨serves rfl rfl (by decide) rfl, by decide, by decide, by decide⟩

theorem witness_ReadWordsAtTheCursor :
    Serving (some .readWords) (asking [0x42, 1, 3] (cursorAt 9 up)) [0x42, 1, 3] [] ∧
      1 < (byteAt [0x42, 2, 1] 1).toNat ∧ (byteAt [0x42, 0, 0] 2).toNat = 0 ∧ 3 < (byteAt [0x42, 0, 4] 2).toNat ∧
      ((byteAt [0x42, 0, 1] 1).toNat = 0 ∧ ((cursorAt 9 up).tables.kind .wpt).active = none) ∧
      ((byteAt [0x42, 0, 3] 1).toNat = 0 ∧ ((cursorAt 9 driving).tables.kind .wpt).active = some wpt) ∧
      ((byteAt [0x42, 1, 3] 1).toNat = 1 ∧ 1 ≤ (byteAt [0x42, 1, 3] 2).toNat ∧ (byteAt [0x42, 1, 3] 2).toNat ≤ 3) ∧
      Kind.words .wpt ≤ (cursorAt 10 up).tables.cursorIndex ∧ (cursorAt 9 up).tables.cursorIndex < Kind.words .wpt ∧
      wpt.length = Kind.words .wpt :=
  ⟨serves rfl rfl (by decide) rfl, by decide, by decide, by decide, by decide, ⟨by decide, rfl⟩, by decide, by decide,
    by decide, by decide⟩

/-- The driving state with a protection setting. -/
def protectedBy (mode : ProtectionMode) (held : Bool) (key : Level) : State :=
  { driving with tables := { driving.tables with mode := mode, held := held, keyLevel := key } }

/-- The kinds of code 4 (in the default set) and 5 (outside it). -/
theorem witness_CommitRefusedByFirstCheck :
    Serving (some .commit) (asking [0x43, 5, 0x52, 0x05] driving) [0x43, 5, 0x52, 0x05] [] ∧
      (byteAt [0x43, 0] 1).toNat = 0 ∧ 5 < (byteAt [0x43, 6] 1).toNat ∧
      Kind.code .wpt = (byteAt [0x43, 5] 1).toNat ∧
      ({ driving.tables with persist := .writing .wpt .emptyMarker } : TableStore).persist ≠ .idle ∧
      driving.tables.persist = .idle ∧ driving.tables.protectSet.getLsbD (Kind.rct.code - 1) = true ∧
      (protectedBy .isOpen true .closed).tables.held = true ∧ (protectedBy .fixed false .closed).tables.mode = .fixed ∧
      ((protectedBy .keyed false .opened).tables.mode = .keyed ∧
        (protectedBy .keyed false .opened).tables.keyLevel = .opened) ∧
      driving.tables.protectSet.getLsbD (Kind.wpt.code - 1) = false ∧ wordSum wpt ≠ 1300 ∧
      (wordSum wpt = (byteAt [0x43, 5, 0x52, 0x05] 2).toNat + 256 * (byteAt [0x43, 5, 0x52, 0x05] 3).toNat ∧
        firstBadWord .wpt (wpt.set 8 150) = some 8) :=
  ⟨serves rfl rfl (by decide) rfl, by decide, by decide, by decide, by decide, rfl, by decide, rfl, rfl, by decide,
    by decide, by decide, by decide⟩

/-- Images of all five kinds that pass field validation. -/
theorem witness_CommitAcceptedReachesItsBlocks :
    Serving (some .commit) (asking [0x43, 5, 0x52, 0x05] driving) [0x43, 5, 0x52, 0x05] [] ∧
      driving.tables.persist = .idle ∧ driving.tables.protectSet.getLsbD (Kind.wpt.code - 1) = false ∧
      ((protectedBy .isOpen false .opened).tables.held = false ∧
        (protectedBy .isOpen false .opened).tables.mode = .isOpen) ∧
      ((protectedBy .keyed false .closed).tables.mode = .keyed ∧
        (protectedBy .keyed false .closed).tables.keyLevel = .closed) ∧
      wordSum wpt = (byteAt [0x43, 5, 0x52, 0x05] 2).toNat + 256 * (byteAt [0x43, 5, 0x52, 0x05] 3).toNat ∧
      (∀ k, firstBadWord k (driving.tables.kind k).shadow = none) := by
  refine ⟨serves rfl rfl (by decide) rfl, rfl, by decide, by decide, by decide, by decide, fun k => ?_⟩
  cases k <;> decide +kernel

theorem witness_SetProtectionByFirstCase :
    Serving (some .setProtection) (asking [0x50, 2, 31] driving) [0x50, 2, 31] [] ∧
      3 < (byteAt [0x50, 4, 0] 1).toNat ∧ 32 ≤ (byteAt [0x50, 0, 32] 2).toNat ∧
      ((byteAt [0x50, 3, 31] 1).toNat ≤ 3 ∧ (byteAt [0x50, 3, 31] 2).toNat < 32) ∧
      (byteAt [0x50, 3, 31] 1).toNat = 3 ∧ (byteAt [0x50, 2, 31] 1).toNat = 2 ∧
      ProtectionMode.code .fixed = (byteAt [0x50, 2, 31] 1).toNat ∧ (protectedBy .isOpen true .closed).tables.held = true ∧
      (protectedBy .isOpen false .opened).tables.keyLevel = .opened ∧
      (let t := (protectedBy .isOpen false .closed).tables
       ¬ (t.held = true ∨ t.mode = .fixed ∨ (t.mode = .keyed ∧ t.keyLevel = .opened) ∨
         ((byteAt [0x50, 2, 31] 1).toNat = 2 ∧ t.keyLevel = .opened))) :=
  ⟨serves rfl rfl (by decide) rfl, by decide, by decide, by decide, by decide, by decide, by decide, rfl, rfl,
    by decide⟩

/-- The driving state with an item of a PERSIST under way. -/
def writing (item : PersistItem) : State :=
  { driving with tables := { driving.tables with persist := .writing item (itemContent driving item) } }

theorem witness_PersistWritesItemByItem :
    Serving (some .persist) (asking [0x51] driving) [0x51] [] ∧ (writing .wpt).tables.persist ≠ .idle ∧
      driving.tables.persist = .idle ∧
      (writing .rct).tables.persist = .writing .rct (itemContent driving .rct) ∧
      PersistItem.settings.number = PersistItem.rct.number + 1 ∧
      (writing .settings).tables.persist = .writing .settings (itemContent driving .settings) ∧
      (up.tables.kind .rct).active = none ∧ (driving.tables.kind .rct).active = some rct :=
  ⟨serves rfl rfl (by decide) rfl, by simp [writing], rfl, rfl, rfl, rfl, rfl, rfl⟩

theorem witness_RequestAndFilteredFrames :
    (({ upPort with mode := .off } : Port).mode = .off ∧ (portOf State.reset .crane).joined = false) ∧
    (up.power = .running ∧ up.cab.port.mode = .active ∧ up.cab.port.joined = true) ∧
      ([1, 0, 0, 0, 0, 0, 0, 0] : List Byte).length = 8 ∧ ([[1], [1], [1]] : List (List Byte)).length < 4 ∧
      ([1, 0, 0, 0, 0, 0, 0] : List Byte).length < 8 ∧ 4 ≤ ([[1], [1], [1], [1]] : List (List Byte)).length ∧
      ((portOf up .crane).mode = .active ∧ (portOf up .crane).joined = true) ∧
      (PortId.cab = .cab → 0x1A6 ≠ 0x1A4 ∧ 0x1A6 ≠ 0x1A5 ∧ 0x1A6 ≠ 0x5C0 + up.cab.na.val) ∧
      (PortId.crane = .crane → 0x3C9 ≠ 0x3C8) := by decide

theorem witness_ReadStatusAnswersFromSnapshot :
    Serving (some .readStatus) (asking [0x01, 3, 8] up) [0x01, 3, 8] [] ∧ 3 < (byteAt [0x01, 4, 0] 1).toNat ∧
      (2 < (byteAt [0x01, 0, 3] 2).toNat ∧ 7 < (byteAt [0x01, 1, 8] 2).toNat ∧ 12 < (byteAt [0x01, 2, 13] 2).toNat ∧
        8 < (byteAt [0x01, 3, 9] 2).toNat) ∧
      ((byteAt [0x01, 3, 8] 1).toNat ≤ 3 ∧ (byteAt [0x01, 3, 8] 2).toNat ≤ 8) ∧
      up.mgmt.snapshots.get 3 = none ∧ ({ up.mgmt.snapshots with page3 := some [[1]] }).get 3 = some [[1]] ∧
      up.lau = none ∧ ({ up with lau := some (.invalid .sensor true) } : State).lau = some (.invalid .sensor true) ∧
      ({ up with lau := some (.valid (validAt (some 744))) } : State).lau = some (.valid (validAt (some 744))) :=
  ⟨serves rfl rfl (by decide) rfl, by decide, by decide, by decide, rfl, rfl, rfl, rfl, rfl⟩

theorem witness_NoticeFlagsAndMask :
    Serving (some .readNotices) (asking [0x02] up) [0x02] [] ∧
      Serving (some .setNoticeMask) (asking [0x03, 0xFF, 0x0F] up) [0x03, 0xFF, 0x0F] [] ∧
      (byteAt [0x03, 0xFF, 0x0F] 1).toNat + 256 * (byteAt [0x03, 0xFF, 0x0F] 2).toNat < 4096 ∧
      4096 ≤ (byteAt [0x03, 0x00, 0x10] 1).toNat + 256 * (byteAt [0x03, 0x00, 0x10] 2).toNat :=
  ⟨serves rfl rfl (by decide) rfl, serves rfl rfl (by decide) rfl, by decide, by decide⟩

theorem witness_ResetSequenceAndUnknownCodes :
    Serving (some .resetPrepare) (asking [0x60] up) [0x60] [] ∧ Serving (some .resetExecute) (asking [0x61] up) [0x61] [] ∧
      Serving none (asking [0x62] up) [0x62] [] ∧ up.mgmt.prepare = false ∧
      ({ up.mgmt with prepare := true } : Management).prepare = true :=
  ⟨serves rfl rfl (by decide) rfl, serves rfl rfl (by decide) rfl, serves rfl rfl (by decide) rfl, rfl, rfl⟩

theorem witness_CabTransmissionEnds :
    (let s : State := { up with cab := { up.cab with responses := [[0x10, 0]], flight := some (.response 0x5D3) } }
     s.power = .running ∧ s.cab.port.mode = .active ∧ s.cab.port.joined = true ∧ s.cab.flight = some (.response 0x5D3) ∧
      s.cab.responses = [0x10, 0] :: [] ∧ s.mgmt.softResetPending = false) ∧
    byteAt [0x10, 0] 0 ≠ 0x61 ∧ ((ending up).mgmt.softResetPending = true ∧ byteAt [0x61, 10] 1 ≠ 0) ∧
    ({ up.cab with flight := some (.notice 0x5E3 [1]) } : CabPort).flight = some (.notice 0x5E3 [1]) := by decide

/-- A port with a transmit error count. -/
def portAt (errors : Nat) : Port :=
  { upPort with txErrors := errors }

/-- At 247 an error while transmitting leaves the port ACTIVE; at 248 it sends it OFF. -/
theorem witness_PortErrorsAndBusOff :
    (up.power = .running ∧ (portOf up .cab).mode = .active ∧ (portOf up .crane).joined = true) ∧
      (portAt 255).txErrors ≤ 255 ∧ (portAt 247).txErrors + 8 ≤ 255 ∧ 255 < (portAt 248).txErrors + 8 ∧
      portSends (sending false) .crane = true ∧
      (let s : State := { up with cab := { up.cab with responses := [[0x10, 0]], flight := some (.response 0x5D3) } }
       portSends s .cab = true ∧ s.cab.flight = some (.response 0x5D3)) ∧
      (let s : State := { up with cab := { up.cab with flight := some (.notice 0x5E3 [1]) } }
       portSends s .cab = true ∧ s.cab.flight = some (.notice 0x5E3 [1])) := by decide

/-- An OFF port with a recovery count. -/
def offAt (count : Nat) : Port :=
  { upPort with mode := .off, txErrors := 256, recovery := count }

theorem witness_PortsRecoverAndJoin :
    up.power = .running ∧ ((offAt 126).mode = .off ∧ (offAt 126).recovery < 127) ∧
      ((offAt 127).recovery = 127 ∧ (offAt 127).joined = true) ∧
      ((portOf State.reset .crane).mode = .active ∧ (portOf State.reset .crane).joined = false) ∧
      ((sending true).valve.pending = true ∧ up.crane.flight = none ∧ up.valve.pending = false) := by decide

/-- The invariants hold of the driving state, which steps. -/
theorem witness_EveryStepKeepsCraneInvariant : CraneInv driving ∧ step driving = .next driving := by
  refine ⟨⟨?_, ?_, by simp [driving], by simp [driving, up, State.reset], by simp [driving, up, State.reset],
    by simp [driving, up, State.reset]⟩, rfl⟩
  · intro _
    exact ⟨by simp [driving], rfl, by simp [driving], rfl, rfl⟩
  · intro c h
    cases h

theorem witness_EveryStepKeepsLimiterInvariant : LimiterInv up ∧ step up = .next up := ⟨rfl, rfl⟩

theorem witness_EveryStepKeepsRecordInvariant :
    RecordInv { threeRecords.records with nextNumber := 4 } ∧ step threeRecords = .next threeRecords := by
  refine ⟨⟨by decide, by decide, by decide, by decide, by decide, by decide⟩, rfl⟩

theorem witness_EveryStepKeepsTableInvariant : TableInv up.tables ∧ step up = .next up := by
  refine ⟨⟨fun k => ?_, by decide⟩, rfl⟩
  cases k <;> exact ⟨fun ws h => (by cases h), List.length_replicate, fun _ => rfl⟩

theorem witness_EveryStepKeepsTransmitterInvariant : TransmitterInv (sending true) ∧ step (sending true) = .next (sending true) := by
  refine ⟨⟨⟨by decide, by decide, by decide, by decide⟩, ⟨by decide, by decide, by decide, by decide⟩, by decide,
    by decide, by decide, trivial, by decide, ?_, by decide, ?_⟩, rfl⟩
  · intro f h
    cases h
    exact ⟨rfl, rfl⟩
  · intro h
    cases h

/-- A step of a READY crane whose section on a RAISES direction stands under a LIMIT. -/
theorem witness_OutputsGrowOnlyWhereAllowed :
    (let s : State := { withOutputs 300 0 up with pending := [.shaperStep] }
     (∃ t, step s = .next t) ∧ s.demand.crane ≠ .active) ∧
    LimiterState.limit.Cutting ∧ sectionAxis (some fmt) 0 = some (fmtAxis fmt 0) ∧ InRaises (fmtAxis fmt 0) 60 := by
  refine ⟨⟨⟨_, rfl⟩, by decide⟩, .inl rfl, by decide, .inl ⟨by decide, by decide⟩⟩

/-- The driving state with the sum of its RCT, which the default set protects, in a commit. -/
theorem witness_ActiveImagesChangeOnlyWhereAllowed :
    (∃ t, exec (.powerOn false false) driving = .next t ∧ (t.tables.kind .wpt).active ≠ (driving.tables.kind .wpt).active) ∧
      driving.tables.protectSet.getLsbD (Kind.rct.code - 1) = true := by
  refine ⟨⟨_, rfl, ?_⟩, by decide⟩
  show (none : Option Image) ≠ some wpt
  simp

theorem witness_CraneActivatesOnlyAtNeutralOwnerFrame :
    (let s := drivenBy .ready false none
     ∃ t, exec (.demandFrame .cab (demand 8 0)) s = .next t ∧ s.demand.crane ≠ .active ∧ t.demand.crane = .active) ∧
    (let s : State := { driving with demand := { driving.demand with owner := some ⟨.cab, false⟩ } }
     ∃ t, exec (.demandFrame .aux (demand 0 1)) s = .next t ∧ t.demand.owner = some ⟨.cab, false⟩) := by
  refine ⟨⟨_, rfl, by decide, by decide +kernel⟩, ⟨_, rfl, by decide +kernel⟩⟩

end Sys2Proof.Tests
end

section
/-! The validity of a load result (R21), and the lever curve (R24). -/

namespace Sys2Proof.Machine

/-! ### The load result of a scan record -/

/-- The sensor conditions of R21, channel by channel. -/
theorem sensorCondition_iff (r : ScanRecord) (bmt : Image) :
    sensorCondition r bmt = true ↔
      r.supplyFaulted = true ∨ (∃ i : Fin 4, r.valid.get (i.castLE (by omega)) = false) ∨
        (r.valid.get 4 = false ∧ 0 < fieldAt bmt 5) := by
  have channels : (∃ i : Fin 4, r.valid.get (i.castLE (by omega)) = false) ↔
      r.valid.s0 = false ∨ r.valid.s1 = false ∨ r.valid.s2 = false ∨ r.valid.s3 = false := by
    constructor
    · rintro ⟨i, h⟩
      match i with
      | 0 => exact .inl h
      | 1 => exact .inr (.inl h)
      | 2 => exact .inr (.inr (.inl h))
      | 3 => exact .inr (.inr (.inr h))
    · rintro (h | h | h | h)
      exacts [⟨0, h⟩, ⟨1, h⟩, ⟨2, h⟩, ⟨3, h⟩]
  have extension : r.valid.get 4 = r.valid.s4 := rfl
  have extends_iff : 0 < (bmtMembers bmt).eMax ↔ 0 < fieldAt bmt 5 := .rfl
  rw [channels, extension]
  simp [sensorCondition, extends_iff, or_assoc]

/-- With the CAL or the fixed BMT EMPTY there is no geometry, whatever the sensors say (R21). -/
theorem loadResultOf_of_empty {r : ScanRecord} (h : r.values = none ∨ r.bmt = none) :
    loadResultOf r = .invalid .noGeometry r.slew.stale := by
  unfold loadResultOf
  split
  case h_1 v bmt hv hb => simp [hv, hb] at h
  case h_2 => rfl

/-- With CAL and BMT present the sensor condition decides between INVALID and the stages of `validLoad` (R21). -/
theorem loadResultOf_of_present {r : ScanRecord} {v : Engineering} {bmt : Image} (hv : r.values = some v)
    (hb : r.bmt = some bmt) :
    loadResultOf r =
      if sensorCondition r bmt then .invalid .sensor r.slew.stale else .valid (validLoad v bmt r.rct r.slew) := by
  simp only [loadResultOf, hv, hb]

/-- A VALID result carries the slew stale flag of the scan record. -/
@[simp] theorem validLoad_slewStale (v : Engineering) (bmt : Image) (rct : Option Image) (slew : SlewRecord) :
    (validLoad v bmt rct slew).slewStale = slew.stale := rfl

/-! ### The offset of the lever lookup -/

/-- At and below −400 the lookup stands at the start of the curve. -/
theorem leverOffset_of_le {alpha : Int} (h : alpha ≤ -400) : leverOffset alpha = 0 := by
  rw [leverOffset, clamp_eq (by omega)]
  omega

/-- At and above +880 the lookup stands at the end of the curve. -/
theorem leverOffset_of_ge {alpha : Int} (h : 880 ≤ alpha) : leverOffset alpha = 40 * 32 := by
  rw [leverOffset, clamp_eq (by omega)]
  omega

/-- Between the ends of the curve the offset is counted from −400. -/
theorem leverOffset_of_between {alpha : Int} (lo : -400 ≤ alpha) (hi : alpha ≤ 880) :
    (leverOffset alpha : Int) = alpha + 400 := by
  rw [leverOffset, clamp_eq (by omega)]
  omega

/-! ### The lever arm at an offset -/

/-- At the offset of the last lever point the arm is that point. -/
theorem leverArm_of_offset_last {bmt : Image} {alpha : Int} (h : leverOffset alpha = 40 * 32) :
    leverArm bmt alpha = bmtLever bmt 32 := by
  simp [leverArm, h]

/-- In interval `i`, `f` past its lever point, the arm is the interpolation to the next point. -/
theorem leverArm_of_offset {bmt : Image} {alpha : Int} {i f : Nat} (hi : i < 32) (hf : f < 40)
    (h : leverOffset alpha = 40 * i + f) :
    leverArm bmt alpha = bmtLever bmt i + Int.tdiv ((bmtLever bmt (i + 1) - bmtLever bmt i) * f) 40 := by
  have index : leverOffset alpha / 40 = i := by omega
  have rest : leverOffset alpha % 40 = f := by omega
  simp only [leverArm, index, rest, if_neg (show i ≠ 32 by omega)]

/-- Within interval `i` of the elevation, the arm is the truncated interpolation between the points around it (R24). -/
theorem leverArm_of_interval {bmt : Image} {alpha : Int} {i : Nat} (hi : i < 32)
    (lower : -400 + 40 * (i : Int) ≤ alpha) (upper : alpha < -400 + 40 * (i + 1 : Int)) :
    leverArm bmt alpha =
      bmtLever bmt i + Int.tdiv ((bmtLever bmt (i + 1) - bmtLever bmt i) * (alpha + 400 - 40 * i)) 40 := by
  obtain ⟨f, hf⟩ := Int.eq_ofNat_of_zero_le (show 0 ≤ alpha + 400 - 40 * i by omega)
  have offset := leverOffset_of_between (alpha := alpha) (by omega) (by omega)
  rw [hf, leverArm_of_offset (f := f) hi (by omega) (by omega)]

/-- The point at the far end of interval `i`, by its word. -/
theorem bmtLever_succ (ws : Image) (i : Nat) : bmtLever ws (i + 1) = fieldAt ws (14 + i) := by
  rw [bmtLever, show 13 + (i + 1) = 14 + i by omega]

/-! ### Truncated interpolation -/

/-- A truncated share of a rise is no fall and no more than the rise. -/
theorem tdiv_share_range {d f n : Int} (hd : 0 ≤ d) (hf : 0 ≤ f) (hfn : f ≤ n) (hn : 0 < n) :
    0 ≤ Int.tdiv (d * f) n ∧ Int.tdiv (d * f) n ≤ d := by
  refine ⟨Int.tdiv_nonneg (Int.mul_nonneg hd hf) hn.le, ?_⟩
  calc Int.tdiv (d * f) n
      ≤ Int.tdiv (d * n) n := Int.tdiv_le_tdiv hn (Int.mul_le_mul_of_nonneg_left hfn hd)
    _ = d := Int.mul_tdiv_cancel d hn.ne'

/-- A truncated interpolation lies between its two points, whether the curve rises or falls. -/
theorem tdiv_interpolation_between (a b : Int) {f n : Int} (hf : 0 ≤ f) (hfn : f ≤ n) (hn : 0 < n) :
    min a b ≤ a + Int.tdiv ((b - a) * f) n ∧ a + Int.tdiv ((b - a) * f) n ≤ max a b := by
  rcases Int.le_total a b with rising | falling
  · have share := tdiv_share_range (d := b - a) (by omega) hf hfn hn
    omega
  · have mirror : Int.tdiv ((b - a) * f) n = -Int.tdiv ((a - b) * f) n := by
      rw [← Int.neg_tdiv, ← Int.neg_mul, Int.neg_sub]
    have share := tdiv_share_range (d := a - b) (by omega) hf hfn hn
    omega

end Sys2Proof.Machine

open Sys2Proof Sys2Proof.Machine

/-- Settles O11: the sensor condition is that of R21, and it is asked only where there is geometry. -/
theorem loadResultValidity : Obligations.LoadResultValidity := by
  intro r
  refine ⟨loadResultOf_of_empty, fun v bmt hv hb => ?_⟩
  rw [loadResultOf_of_present hv hb]
  refine ⟨fun sensor => ?_, fun supply channels extension => ?_⟩
  · exact if_pos ((sensorCondition_iff r bmt).2 sensor)
  · have clear : ¬ sensorCondition r bmt = true := by
      rw [sensorCondition_iff]
      rintro (h | ⟨i, h⟩ | ⟨h, present⟩)
      · simp [supply] at h
      · simp [channels i] at h
      · rcases extension with valid | absent
        · simp [valid] at h
        · omega
    exact ⟨validLoad v bmt r.rct r.slew, if_neg clear, validLoad_slewStale ..⟩

/-- Settles O13: the offset names the interval and the rest in it, and a truncated interpolation stays between its
points. -/
theorem leverArmFollowsTheCurve : Obligations.LeverArmFollowsTheCurve := by
  intro bmt alpha
  refine ⟨fun below => ?_, fun above => ?_, fun i hi lower upper => ?_⟩
  · rw [leverArm_of_offset (i := 0) (f := 0) (by omega) (by omega) (leverOffset_of_le below)]
    simp [bmtLever]
  · exact leverArm_of_offset_last (leverOffset_of_ge above)
  · have arm := leverArm_of_interval (bmt := bmt) hi lower upper
    have between := tdiv_interpolation_between (bmtLever bmt i) (bmtLever bmt (i + 1))
      (f := alpha + 400 - 40 * i) (n := 40) (by omega) (by omega) (by omega)
    rw [← arm] at between
    rw [bmtLever_succ] at arm between
    exact ⟨between.1, between.2, arm⟩
end

section
/-! The utilisation (R46), and the notice flag of a Limiter evaluation (R54). -/

namespace Sys2Proof.Machine

/-! ### The utilisation, case by case -/

@[simp] theorem utilisationOf_reachShort (effective : Nat) : utilisationOf none effective = 0 := rfl

@[simp] theorem utilisationOf_noCapacity (w : Int) : utilisationOf (some w) 0 = 1999 := rfl

theorem utilisationOf_nonpos {w : Int} {effective : Nat} (capacity : 0 < effective) (unloaded : w ≤ 0) :
    utilisationOf (some w) effective = 0 := by
  rw [utilisationOf, if_neg capacity.ne', if_pos unloaded]

theorem utilisationOf_pos {w effective : Nat} (capacity : 0 < effective) (loaded : 0 < w) :
    utilisationOf (some (w : Int)) effective = min (1000 * w / effective) 1999 := by
  rw [utilisationOf, if_neg capacity.ne', if_neg (by omega), Int.toNat_natCast]

/-! ### The flag of an evaluation -/

/-- FAULT is the only state of code 3, whatever its cause. -/
theorem limiterState_code_eq_three {x : LimiterState} : x.code = 3 ↔ ∃ cause, x = .fault cause := by
  cases x <;> simp [LimiterState.code]

theorem limiterTakes_of_code_eq {s : State} {rct : Option Image} {r : LoadResult}
    (stays : s.limiter.state.code = (s.limiter.evaluate rct r).state.code) :
    limiterTakes rct r s = { s with limiter := s.limiter.evaluate rct r } := by
  simp only [limiterTakes, evaluationFlag, if_pos stays, raiseAny]

theorem limiterTakes_of_code_ne {s : State} {rct : Option Image} {r : LoadResult}
    (enters : s.limiter.state.code ≠ (s.limiter.evaluate rct r).state.code) :
    limiterTakes rct r s =
      raise (s.limiter.evaluate rct r).state.entryFlag { s with limiter := s.limiter.evaluate rct r } := by
  simp only [limiterTakes, evaluationFlag, if_neg enters, raiseAny]

end Sys2Proof.Machine

open Sys2Proof Sys2Proof.Machine

/-- Settles O15: each case of R46 by its own equation. -/
theorem utilisationByFirstCase : Obligations.UtilisationByFirstCase :=
  ⟨utilisationOf_reachShort, utilisationOf_noCapacity, fun _ _ => utilisationOf_nonpos, fun _ _ => utilisationOf_pos,
    utilisationOf_le⟩

/-- Settles O17: states are told apart by their codes, which FAULT shares among its causes, and a state entered raises
its own entry flag. -/
theorem limiterRaisesItsEntryFlag : Obligations.LimiterRaisesItsEntryFlag := by
  intro s rct r
  refine ⟨limiterTakes_of_code_eq, fun enters => ?_⟩
  rw [limiterTakes_of_code_ne enters]
  refine ⟨fun limit => ?_, fun warn => ?_, fun clear => ?_, fun fault => ?_⟩
  · rw [limit, LimiterState.entryFlag]
  · rw [warn, LimiterState.entryFlag]
  · rw [clear, LimiterState.entryFlag]
  · obtain ⟨cause, entered⟩ := limiterState_code_eq_three.1 fault
    rw [entered, LimiterState.entryFlag]
end

section
/-! The assortment and the load requests (R138 to R140). -/

namespace Sys2Proof.Machine

/-! ### Requests that touch the Record Unit alone -/

/-- The serving of a request whose decision gives the Record Unit `u` and leaves the rest of the state: the answer starts
on a free port, and nothing else moves (R174, R185). A refusal is the case `u = s.records`. -/
theorem serve_starts_of_records {req : Option Request} {s : State} {frame : List Byte} {rest : List (List Byte)}
    (h : Serving req s frame rest) {d : List Byte → State → State × Reply} {u : RecordUnit} {st : Status}
    {data : List Byte}
    (hd : d frame { s with cab := { s.cab with requests := rest } } =
      ({ s with cab := { s.cab with requests := rest }, records := u }, { status := st, data := data })) :
    CabStarts (answered frame rest st.code data { s with records := u }) (serve req false d s) :=
  serve_starts (w := { s with records := u }) h rfl id hd

/-! ### The decisions, case by case -/

/-- A sort below 16 becomes the current assortment and is echoed as the request gave it (R138). -/
theorem decideSelectAssortment_of_sort {frame : List Byte} {k : Fin 16} (hk : (byteAt frame 1).toNat = k.val) (s : State) :
    decideSelectAssortment frame s =
      ({ s with records := { s.records with assortment := k } }, { status := .ok, data := [byteAt frame 1] }) := by
  have below : (byteAt frame 1).toNat < 16 := hk ▸ k.isLt
  have named : (⟨(byteAt frame 1).toNat, below⟩ : Fin 16) = k := Fin.ext hk
  simp only [decideSelectAssortment, dif_pos below, named, byteOf_toNat]

theorem decideSelectAssortment_of_ge {frame : List Byte} (h : 16 ≤ (byteAt frame 1).toNat) (s : State) :
    decideSelectAssortment frame s = (s, .bare .range) :=
  dif_neg (Nat.not_lt.2 h)

/-- Mode 1 opens a load in LOADING and mode 2 in UNLOADING (R139). -/
theorem decideOpenLoad_of_mode {frame : List Byte} {state : TallyState}
    (mode : ((byteAt frame 1).toNat = 1 ∧ state = .loading) ∨ ((byteAt frame 1).toNat = 2 ∧ state = .unloading))
    (s : State) : decideOpenLoad frame s = ({ s with records := s.records.openLoad state }, .bare .ok) := by
  rcases mode with ⟨one, rfl⟩ | ⟨two, rfl⟩
  · exact if_pos one
  · have notOne : (byteAt frame 1).toNat ≠ 1 := by omega
    simp only [decideOpenLoad, if_neg notOne, if_pos two]

theorem decideOpenLoad_of_other {frame : List Byte} (notOne : (byteAt frame 1).toNat ≠ 1)
    (notTwo : (byteAt frame 1).toNat ≠ 2) (s : State) : decideOpenLoad frame s = (s, .bare .range) := by
  simp only [decideOpenLoad, if_neg notOne, if_neg notTwo]

/-! ### The commands, where their request is the one served -/

theorem exec_selectAssortment_of_serving {s : State} {frame : List Byte} {rest : List (List Byte)}
    (h : Serving (some .selectAssortment) s frame rest) :
    exec .selectAssortment s = .next (serve (some .selectAssortment) false decideSelectAssortment s) :=
  whileRunning_running _ h.running

theorem exec_openLoad_of_serving {s : State} {frame : List Byte} {rest : List (List Byte)}
    (h : Serving (some .openLoad) s frame rest) :
    exec .openLoad s = .next (serve (some .openLoad) false decideOpenLoad s) :=
  whileRunning_running _ h.running

theorem exec_closeLoad_of_serving {s : State} {frame : List Byte} {rest : List (List Byte)}
    (h : Serving (some .closeLoad) s frame rest) :
    exec .closeLoad s = .next (serve (some .closeLoad) false decideCloseLoad s) :=
  whileRunning_running _ h.running

end Sys2Proof.Machine

open Sys2Proof Sys2Proof.Machine

/-- Settles O36: each command serves its request, and each case of its decision changes the Record Unit alone. -/
theorem assortmentAndLoadRequests : Obligations.AssortmentAndLoadRequests := by
  intro s frame rest
  refine ⟨fun serving => ⟨_, exec_selectAssortment_of_serving serving, fun k sort => ?_, fun above => ?_⟩,
    fun serving => ⟨_, exec_openLoad_of_serving serving, fun state mode => ?_, fun notOne notTwo => ?_⟩,
    fun serving => ⟨_, exec_closeLoad_of_serving serving, ?_⟩⟩
  · exact serve_starts_of_records serving (decideSelectAssortment_of_sort sort _)
  · exact serve_starts_of_records serving (decideSelectAssortment_of_ge above _)
  · exact serve_starts_of_records serving (decideOpenLoad_of_mode mode _)
  · exact serve_starts_of_records serving (decideOpenLoad_of_other notOne notTwo _)
  · exact serve_starts_of_records (d := decideCloseLoad) serving rfl
end

section
/-! OPEN_TABLE and DISCARD (R145, R147, R150). -/

namespace Sys2Proof.Machine

/-! ### Requests that touch the Table Store alone -/

/-- The serving of a request whose decision gives the Table Store `u` and leaves the rest of the state: the answer
starts on a free port, and nothing else moves (R174, R185). A refusal is the case `u = s.tables`. -/
theorem serve_starts_of_tables {req : Option Request} {s : State} {frame : List Byte} {rest : List (List Byte)}
    (h : Serving req s frame rest) {d : List Byte → State → State × Reply} {u : TableStore} {st : Status}
    {data : List Byte}
    (hd : d frame { s with cab := { s.cab with requests := rest } } =
      ({ s with cab := { s.cab with requests := rest }, tables := u }, { status := st, data := data })) :
    CabStarts (answered frame rest st.code data { s with tables := u }) (serve req false d s) :=
  serve_starts (w := { s with tables := u }) h rfl id hd

/-! ### Making a shadow CLEAN -/

/-- What OPEN_TABLE makes of a kind's images: a DIRTY shadow is kept, and of a CLEAN one the words alone are set, which
leaves it CLEAN (R147). -/
theorem KindTable.clean_unless_dirty (k : Kind) (x : KindTable) :
    (if x.dirty then x else x.clean k) = if x.dirty then x else { x with shadow := cleanWords k x.active } := by
  split
  case isTrue => rfl
  case isFalse notDirty => rw [KindTable.clean, Bool.eq_false_of_not_eq_true notDirty]

/-! ### The decisions, case by case -/

/-- OPEN_TABLE refuses a code that no kind has (R147). -/
theorem decideOpenTable_of_no_kind {frame : List Byte} (h : (byteAt frame 1).toNat = 0 ∨ 5 < (byteAt frame 1).toNat)
    (s : State) : decideOpenTable frame s = (s, .bare .range) := by
  simp only [decideOpenTable, kindOfCode_eq_none.2 h]

/-- OPEN_TABLE refuses a start at or beyond the end of the kind's image (R147). -/
theorem decideOpenTable_of_words_le {frame : List Byte} {k : Kind} (code : k.code = (byteAt frame 1).toNat)
    (beyond : k.words ≤ pairAt frame 2) (s : State) : decideOpenTable frame s = (s, .bare .range) := by
  simp only [decideOpenTable, kindOfCode_eq_some.2 code, if_neg (Nat.not_lt.2 beyond)]

/-- OPEN_TABLE of a kind at a word of its image sets the cursor there, refreshes a CLEAN shadow and echoes the kind and
the index as the request gave them (R147). -/
theorem decideOpenTable_of_lt_words {frame : List Byte} {k : Kind} (code : k.code = (byteAt frame 1).toNat)
    (within : pairAt frame 2 < k.words) (s : State) :
    decideOpenTable frame s =
      ({ s with
          tables :=
            { s.tables.setKind k
                (if (s.tables.kind k).dirty then s.tables.kind k
                  else { s.tables.kind k with shadow := cleanWords k (s.tables.kind k).active }) with
              cursorKind := k, cursorIndex := pairAt frame 2 } },
        { status := .ok
          data := [byteAt frame 1, byteAt frame 2, byteAt frame 3, flagByte (s.tables.kind k).active.isSome,
            flagByte (s.tables.kind k).dirty] }) := by
  have echo : byteOf k.code :: bytes2 (pairAt frame 2) = [byteAt frame 1, byteAt frame 2, byteAt frame 3] := by
    rw [code, byteOf_toNat, bytes2_pairAt]
  simp only [decideOpenTable, kindOfCode_eq_some.2 code, if_pos within, echo, KindTable.clean_unless_dirty,
    List.cons_append, List.nil_append]

/-- DISCARD refuses a code that no kind has (R150). -/
theorem decideDiscard_of_no_kind {frame : List Byte} (h : (byteAt frame 1).toNat = 0 ∨ 5 < (byteAt frame 1).toNat)
    (s : State) : decideDiscard frame s = (s, .bare .range) := by
  simp only [decideDiscard, kindOfCode_eq_none.2 h]

/-- DISCARD of a kind makes its shadow CLEAN and echoes the kind as the request gave it (R150). -/
theorem decideDiscard_of_kind {frame : List Byte} {k : Kind} (code : k.code = (byteAt frame 1).toNat) (s : State) :
    decideDiscard frame s =
      ({ s with tables := s.tables.setKind k ((s.tables.kind k).clean k) },
        { status := .ok, data := [byteAt frame 1, flagByte (s.tables.kind k).active.isSome] }) := by
  have echo : byteOf k.code = byteAt frame 1 := by rw [code, byteOf_toNat]
  simp only [decideDiscard, kindOfCode_eq_some.2 code, echo]

/-! ### The commands, where their request is the one served -/

theorem exec_openTable_of_serving {s : State} {frame : List Byte} {rest : List (List Byte)}
    (h : Serving (some .openTable) s frame rest) :
    exec .openTable s = .next (serve (some .openTable) false decideOpenTable s) :=
  whileRunning_running _ h.running

theorem exec_discard_of_serving {s : State} {frame : List Byte} {rest : List (List Byte)}
    (h : Serving (some .discard) s frame rest) :
    exec .discard s = .next (serve (some .discard) false decideDiscard s) :=
  whileRunning_running _ h.running

end Sys2Proof.Machine

open Sys2Proof Sys2Proof.Machine

/-- Settles O38: each command serves its request, and each case of its decision changes the Table Store alone. -/
theorem openTableAndDiscard : Obligations.OpenTableAndDiscard := by
  intro s frame rest
  refine ⟨fun serving => ⟨_, exec_openTable_of_serving serving, fun noKind => ?_, fun k code beyond => ?_,
      fun k code within => ?_⟩,
    fun serving => ⟨_, exec_discard_of_serving serving, fun noKind => ?_, fun k code => ?_⟩⟩
  · exact serve_starts_of_tables serving (decideOpenTable_of_no_kind noKind _)
  · exact serve_starts_of_tables serving (decideOpenTable_of_words_le code beyond _)
  · exact serve_starts_of_tables serving (decideOpenTable_of_lt_words code within _)
  · exact serve_starts_of_tables serving (decideDiscard_of_no_kind noKind _)
  · exact serve_starts_of_tables serving (decideDiscard_of_kind code _)
end

section
/-! SET_PROTECTION (R165). -/

namespace Sys2Proof.Machine

/-! ### The parts of the decision -/

/-- The locked cases of R165 as it lists them. -/
theorem protectionLocked_iff (t : TableStore) (modeByte : Nat) :
    protectionLocked t modeByte = true ↔
      t.held = true ∨ t.mode = .fixed ∨ (t.mode = .keyed ∧ t.keyLevel = .opened) ∨
        (modeByte = 2 ∧ t.keyLevel = .opened) := by
  simp [protectionLocked, or_assoc]

/-- The four data bytes of a response: mode, protect set, held flag, key level (R165). -/
theorem protectionData_eq (t : TableStore) :
    protectionData t =
      [BitVec.ofNat 8 t.mode.code, BitVec.ofNat 8 t.protectSet.toNat, if t.held then 1 else 0,
        if t.keyLevel = .closed then 1 else 0] := by
  simp only [protectionData, byteOf, flagByte, beq_iff_eq]

/-- Mode byte 3 sets the held flag and ignores the set byte (R165). -/
theorem TableStore.protect_three (t : TableStore) (setByte : Byte) : t.protect 3 setByte = { t with held := true } := rfl

/-- A mode byte that codes a mode makes mode and protect set those of the request (R165). -/
theorem TableStore.protect_of_code {m : ProtectionMode} {modeByte : Nat} (code : m.code = modeByte) (t : TableStore)
    (setByte : Byte) :
    t.protect modeByte setByte = { t with mode := m, protectSet := BitVec.ofNat 5 setByte.toNat } := by
  simp only [TableStore.protect, protectionMode_eq_some.2 code, BitVec.ofNat_toNat, BitVec.truncate_eq_setWidth]

/-- The modes have the codes 0, 1 and 2. -/
theorem ProtectionMode.code_lt_three (m : ProtectionMode) : m.code < 3 := by
  cases m <;> decide

/-! ### The decision, case by case -/

/-- A mode byte above 3 or a set byte with one of bits 5..7 is RANGE (R165). -/
theorem decideSetProtection_of_range {frame : List Byte}
    (range : 3 < (byteAt frame 1).toNat ∨ 32 ≤ (byteAt frame 2).toNat) (s : State) :
    decideSetProtection frame s = (s, { status := .range, data := protectionData s.tables }) :=
  if_pos range

section
variable {frame : List Byte} (mode : (byteAt frame 1).toNat ≤ 3) (set : (byteAt frame 2).toNat < 32) {s : State}
include mode set

/-- In the ranges of R165 a locked setting is LOCKED. -/
theorem decideSetProtection_of_locked (locked : protectionLocked s.tables (byteAt frame 1).toNat = true) :
    decideSetProtection frame s = (s, { status := .locked, data := protectionData s.tables }) := by
  have inRange : ¬ (3 < (byteAt frame 1).toNat ∨ 32 ≤ (byteAt frame 2).toNat) := by omega
  simp only [decideSetProtection, if_neg inRange, if_pos locked]

/-- In the ranges of R165 a setting not locked is changed, and the response shows it as changed. -/
theorem decideSetProtection_of_unlocked (unlocked : ¬ protectionLocked s.tables (byteAt frame 1).toNat = true)
    {x : TableStore} (changed : s.tables.protect (byteAt frame 1).toNat (byteAt frame 2) = x) :
    decideSetProtection frame s = ({ s with tables := x }, { status := .ok, data := protectionData x }) := by
  have inRange : ¬ (3 < (byteAt frame 1).toNat ∨ 32 ≤ (byteAt frame 2).toNat) := by omega
  simp only [decideSetProtection, if_neg inRange, if_neg unlocked, changed]

end

/-! ### The command, where its request is the one served -/

theorem exec_setProtection_of_serving {s : State} {frame : List Byte} {rest : List (List Byte)}
    (h : Serving (some .setProtection) s frame rest) :
    exec .setProtection s = .next (serve (some .setProtection) false decideSetProtection s) :=
  whileRunning_running _ h.running

/-- Whatever the decision, the response shows the setting as it stands after the request (R165). -/
theorem serve_setProtection_starts {s : State} {frame : List Byte} {rest : List (List Byte)}
    (h : Serving (some .setProtection) s frame rest) {x : TableStore} {st : Status}
    (decided : decideSetProtection frame { s with cab := { s.cab with requests := rest } } =
      ({ s with cab := { s.cab with requests := rest }, tables := x }, { status := st, data := protectionData x })) :
    CabStarts
      (answered frame rest st.code
        [BitVec.ofNat 8 x.mode.code, BitVec.ofNat 8 x.protectSet.toNat, if x.held then 1 else 0,
          if x.keyLevel = .closed then 1 else 0]
        { s with tables := x })
      (serve (some .setProtection) false decideSetProtection s) := by
  rw [← protectionData_eq]
  exact serve_starts_of_tables h decided

end Sys2Proof.Machine

open Sys2Proof Sys2Proof.Machine

/-- Settles O43: range comes before lock and lock before the change, and each case of the decision changes the Table
Store alone. -/
theorem setProtectionByFirstCase : Obligations.SetProtectionByFirstCase := by
  intro s frame rest serving
  refine ⟨_, exec_setProtection_of_serving serving, ?_⟩
  simp only [← protectionLocked_iff]
  refine ⟨fun range => ?_, fun mode set locked => ?_, fun set held unlocked => ?_, fun m code set unlocked => ?_⟩
  · exact serve_setProtection_starts (st := .range) serving (decideSetProtection_of_range range _)
  · exact serve_setProtection_starts (st := .locked) serving (decideSetProtection_of_locked mode set locked)
  · have changed : s.tables.protect (byteAt frame 1).toNat (byteAt frame 2) = { s.tables with held := true } := by
      rw [held, TableStore.protect_three]
    exact serve_setProtection_starts (st := .ok) serving (decideSetProtection_of_unlocked held.le set
      (s := { s with cab := { s.cab with requests := rest } }) unlocked changed)
  · have mode : (byteAt frame 1).toNat ≤ 3 := code ▸ m.code_lt_three.le
    have changed := s.tables.protect_of_code code (byteAt frame 2)
    exact serve_setProtection_starts (st := .ok) serving (decideSetProtection_of_unlocked mode set
      (s := { s with cab := { s.cab with requests := rest } }) unlocked changed)
end

section
/-! What a command can change of the images and the cursor (R144, R145, R146, R164). -/

namespace Sys2Proof.Machine

/-! ### The invariant of the tables -/

/-- Serving a request keeps the invariant where its decision does. -/
theorem serve_tableInv {req : Option Request} {p : Bool} {d : List Byte → State → State × Reply} {s : State}
    (hs : TableInv s.tables) (hd : ∀ f u, TableInv u.tables → TableInv (d f u).1.tables) :
    TableInv (serve req p d s).tables :=
  serve_tables_keeps (P := TableInv) hs fun f u hu => hd f u (hu ▸ hs)

/-- COMMIT keeps the invariant: it leaves the Table Store or accepts a kind (R151, R159). -/
theorem decideCommit_tableInv (f : List Byte) (u : State) (h : TableInv u.tables) :
    TableInv (decideCommit f u).1.tables := by
  obtain same | ⟨k, -, -, accepted⟩ := decideCommit_tables f u
  · rwa [same]
  · rw [accepted]
    exact accept_inv h k

/-- Where the part was running, a property of what its step gives holds of the next state; where it was held in reset,
the state is the old one. -/
theorem whileRunning_keeps {P : State → Prop} {s u t : State} (h : whileRunning s u = .next t) (held : P s) (runs : P u) :
    P t := by
  obtain ⟨-, rfl⟩ | ⟨-, rfl⟩ := whileRunning_cases h
  exacts [runs, held]

/-- A response that ends, with the soft reset that may take place there, leaves the Table Store or takes it through its
soft reset (R172, R181). -/
theorem responseEnd_tables (s : State) :
    (startCab (if resetAtEnd s then softReset (responseEnds s) else responseEnds s)).tables = s.tables ∨
    (startCab (if resetAtEnd s then softReset (responseEnds s) else responseEnds s)).tables = s.tables.softReset := by
  split
  · exact .inr (by simp [softReset_tables])
  · exact .inl (by simp)

/-- Every command keeps the invariant of the tables. -/
theorem exec_tableInv {c : Instr} {s t : State} (hs : TableInv s.tables) (h : exec c s = .next t) :
    TableInv t.tables := by
  have request {req p d} (hd : ∀ f u, TableInv u.tables → TableInv (d f u).1.tables)
      (hx : exec c s = whileRunning s (serve req p d s)) : TableInv t.tables :=
    whileRunning_keeps (P := fun x => TableInv x.tables) (hx ▸ h) hs (serve_tableInv hs hd)
  cases c
  case powerOn | supplyDip => cases h; exact .loaded ..
  case serviceKeyLineChange => cases h; exact hs.congr (fun k => by cases k <;> rfl) rfl rfl
  case supplyFallsBelowDipThreshold =>
    cases h
    exact hs.congr (losePersist_kind _) (losePersist_cursorKind _) (losePersist_cursorIndex _)
  case keyLevelChange =>
    refine whileRunning_keeps (P := fun x => TableInv x.tables) h hs ?_
    split
    · exact hs
    · exact hs.congr (fun k => by cases k <;> rfl) rfl rfl
  case softReset =>
    refine whileRunning_keeps (P := fun x => TableInv x.tables) h hs ?_
    split
    · simpa [softReset_tables] using hs.softReset
    · exact hs
  case responseTransmissionEnd =>
    refine whileRunning_keeps (P := fun x => TableInv x.tables) h hs ?_
    split
    · obtain same | reset := responseEnd_tables s
      · exact same ▸ hs
      · exact reset ▸ hs.softReset
    · exact hs
  case openTable => exact request (fun _ _ => decideOpenTable_inv) rfl
  case writeWords => exact request (fun _ _ => decideWriteWords_inv) rfl
  case readWords => exact request (fun _ _ => decideReadWords_inv) rfl
  case discard => exact request (fun _ _ => decideDiscard_inv) rfl
  case commit => exact request decideCommit_tableInv rfl
  case setProtection => exact request (fun _ _ => decideSetProtection_inv) rfl
  case persist => exact request (fun _ _ => decidePersist_inv) rfl
  case persistItemEnd => exact execPersistItemEnd_inv hs h
  all_goals
    have same : t.tables = s.tables := by simpa using exec_tables h
    rwa [same]

/-! ### The active images -/

/-- Serving a request leaves the active images where its decision does. -/
theorem serve_sameActive {req : Option Request} {p : Bool} {d : List Byte → State → State × Reply} (s : State)
    (hd : ∀ f u, SameActive u.tables (d f u).1.tables) : SameActive s.tables (serve req p d s).tables :=
  serve_tables_keeps (P := SameActive s.tables) (SameActive.refl _) fun f u hu => hu ▸ hd f u

/-- Only a restart and a COMMIT can change an active image (R144). -/
theorem exec_sameActive {c : Instr} {s t : State} (h : exec c s = .next t) :
    SameActive s.tables t.tables ∨ (∃ a b, c = .powerOn a b ∨ c = .supplyDip a b) ∨ c = .commit := by
  have request {req p d} (hd : ∀ f u, SameActive u.tables (d f u).1.tables)
      (hx : exec c s = whileRunning s (serve req p d s)) : SameActive s.tables t.tables :=
    whileRunning_keeps (P := fun x => SameActive s.tables x.tables) (hx ▸ h) (.refl _) (serve_sameActive s hd)
  cases c
  case powerOn a b => exact .inr (.inl ⟨a, b, .inl rfl⟩)
  case supplyDip a b => exact .inr (.inl ⟨a, b, .inr rfl⟩)
  case commit => exact .inr (.inr rfl)
  all_goals left
  case serviceKeyLineChange => cases h; exact .of fun k => by cases k <;> rfl
  case supplyFallsBelowDipThreshold => cases h; exact .of (losePersist_kind _)
  case keyLevelChange =>
    refine whileRunning_keeps (P := fun x => SameActive s.tables x.tables) h (.refl _) ?_
    split
    · exact .refl _
    · exact .of fun k => by cases k <;> rfl
  case softReset =>
    refine whileRunning_keeps (P := fun x => SameActive s.tables x.tables) h (.refl _) ?_
    split
    · simpa [softReset_tables] using SameActive.softReset s.tables
    · exact .refl _
  case responseTransmissionEnd =>
    refine whileRunning_keeps (P := fun x => SameActive s.tables x.tables) h (.refl _) ?_
    split
    · obtain same | reset := responseEnd_tables s
      · exact same ▸ .refl _
      · exact reset ▸ .softReset _
    · exact .refl _
  case persistItemEnd found =>
    refine whileRunning_keeps (P := fun x => SameActive s.tables x.tables) h (.refl _) ?_
    split
    · exact .refl _
    · simp only
      split
      · exact .of fun k => by cases k <;> rfl
      · simp only [startCab_tables, raise_tables]
        exact .of fun k => by cases k <;> rfl
  case openTable => exact request decideOpenTable_sameActive rfl
  case writeWords => exact request decideWriteWords_sameActive rfl
  case readWords => exact request decideReadWords_sameActive rfl
  case discard => exact request decideDiscard_sameActive rfl
  case setProtection => exact request decideSetProtection_sameActive rfl
  case persist => exact request decidePersist_sameActive rfl
  all_goals
    have same : t.tables = s.tables := by simpa using exec_tables h
    rw [same]
    exact .refl _

/-- What it takes to commit a kind (R151, R153, R164). -/
def Committable (t : TableStore) (k : Kind) : Prop :=
  t.persist = .idle ∧ firstBadWord k (t.kind k).shadow = none ∧
    (t.protectSet.getLsbD (k.code - 1) = true →
      t.held = false ∧ (t.mode = .isOpen ∨ (t.mode = .keyed ∧ t.keyLevel = .closed)))

/-- The active image of a kind is the old one, or it is the old shadow, which could be committed (R144, R159). -/
def CommittedFrom (old new : TableStore) (k : Kind) : Prop :=
  (new.kind k).active = (old.kind k).active ∨
    ((new.kind k).active = some (old.kind k).shadow ∧ Committable old k)

/-- A COMMIT changes an active image to its shadow alone, after its checks (R151, R159). -/
theorem decideCommit_committedFrom (f : List Byte) (u : State) (k : Kind) :
    CommittedFrom u.tables (decideCommit f u).1.tables k := by
  obtain same | ⟨j, -, passed, accepted⟩ := decideCommit_tables f u
  · exact .inl (by rw [same])
  rw [accepted, TableStore.accept]
  by_cases other : k = j
  · subst other
    obtain ⟨idle, allowed, -, valid⟩ := commitRefusal_none passed
    exact .inr ⟨by simp, idle, valid, (protectionAllows_iff _ _).1 allowed⟩
  · exact .inl (by rw [TableStore.kind_setKind_of_ne _ _ other])

/-- The same of the COMMIT command. -/
theorem exec_commit_committedFrom {s t : State} (h : exec .commit s = .next t) (k : Kind) :
    CommittedFrom s.tables t.tables k := by
  have kept : CommittedFrom s.tables s.tables k := .inl rfl
  refine whileRunning_keeps (P := fun x => CommittedFrom s.tables x.tables k) h kept ?_
  exact serve_tables_keeps (P := fun x => CommittedFrom s.tables x k) kept fun f u same =>
    same ▸ decideCommit_committedFrom f u k

end Sys2Proof.Machine

open Sys2Proof Sys2Proof.Machine

/-- Settles O55: every command keeps the form of the images and the cursor. -/
theorem everyStepKeepsTableInvariant : Obligations.EveryStepKeepsTableInvariant := by
  intro s t hs h
  exact step_keeps (P := fun x => TableInv x.tables) (fun _ _ hx => hx) (fun _ _ _ => exec_tableInv) hs h

/-- Settles O59: a command that is no restart and no COMMIT leaves every active image, and a COMMIT has passed its
checks. -/
theorem activeImagesChangeOnlyWhereAllowed : Obligations.ActiveImagesChangeOnlyWhereAllowed := by
  intro s t c k h changed
  obtain same | restart | rfl := exec_sameActive h
  · exact absurd (same k) changed
  · exact .inl restart
  · obtain same | ⟨shadow, idle, valid, allowed⟩ := exec_commit_committedFrom h k
    · exact absurd same changed
    · exact .inr ⟨rfl, idle, shadow, valid, allowed⟩
end

section
/-! The Limiter with the latest load result (R48, R49, R53, R58), and the record queue (R131). -/

namespace Sys2Proof.Machine

/-! ### The Limiter -/

/-- The agreement looks at the load result and the Limiter's record alone. -/
theorem LimiterInv.congr {s t : State} (h : LimiterInv s) (lau : t.lau = s.lau) (limiter : t.limiter = s.limiter) :
    LimiterInv t := by
  unfold LimiterInv
  rw [lau, limiter]
  exact h

/-- With no load result the Limiter stands in FAULT with NO_DATA (R56). -/
theorem LimiterInv.of_noData {s : State} (lau : s.lau = none) (limiter : s.limiter = { state := .fault .noData, u := 0 }) :
    LimiterInv s := by
  unfold LimiterInv
  rw [lau]
  exact limiter

/-- A load result is INVALID, or it has a rating exactly where the scan record has an RCT (R21, R36). -/
theorem loadResultOf_cases (r : ScanRecord) :
    (∃ cause stale, loadResultOf r = .invalid cause stale) ∨
      ∃ load, loadResultOf r = .valid load ∧ load.rating = r.rct.map (ratingOf · r.slew load.band load.weight) := by
  unfold loadResultOf
  split
  · split
    · exact .inl ⟨_, _, rfl⟩
    · exact .inr ⟨_, rfl, rfl⟩
  · exact .inl ⟨_, _, rfl⟩

/-- The Limiter's evaluation of the result of a scan record, under the RCT that the scan fixed, agrees with it (R48). -/
theorem LimiterInv.of_evaluated {s : State} {r : ScanRecord} {l : Limiter} (lau : s.lau = some (loadResultOf r))
    (limiter : s.limiter = l.evaluate r.rct (loadResultOf r)) : LimiterInv s := by
  unfold LimiterInv
  rw [lau, limiter]
  obtain ⟨cause, stale, invalid⟩ | ⟨load, valid, rating⟩ := loadResultOf_cases r
  · rw [invalid]
    cases cause <;> rfl
  · rw [valid]
    cases chart : r.rct with
    | none => simp [rating, chart, Limiter.evaluate]
    | some ws =>
      simp only [rating, chart, Option.map_some, Limiter.evaluate]
      exact ⟨nextLimiterState_code _ _ _, trivial, ratingOf_utilisation_le _ _ _ _⟩

theorem softReset_lau (s : State) : (softReset s).lau = none := by
  unfold softReset
  simp only
  split <;> simp

theorem softReset_limiter (s : State) : (softReset s).limiter = { state := .fault .noData, u := 0 } := by
  unfold softReset
  simp only
  split <;> simp

/-- After a soft reset there is no load result (R20, R56). -/
theorem startCab_softReset_limiterInv (s : State) : LimiterInv (startCab (softReset s)) :=
  .of_noData (by simp [softReset_lau]) (by simp [softReset_limiter])

/-- A scan completion gives the Limiter the load result that it forms (R19, R48). -/
theorem completeScan_limiterInv (fixed : FixedTables) (counts : Six (BitVec 12)) (s : State) :
    LimiterInv (startCab (completeScan fixed counts s)) :=
  LimiterInv.of_evaluated (by rw [startCab_lau]; exact lauTakes_lau ..) (by rw [startCab_limiter]; exact lauTakes_limiter ..)

/-- Every command keeps the agreement. -/
theorem exec_limiterInv {c : Instr} {s t : State} (hs : LimiterInv s) (h : exec c s = .next t) : LimiterInv t := by
  cases c
  case powerOn | supplyDip => cases h; exact .of_noData rfl rfl
  case softReset =>
    refine whileRunning_keeps h hs ?_
    split
    · exact startCab_softReset_limiterInv _
    · exact hs
  case responseTransmissionEnd =>
    refine whileRunning_keeps h hs ?_
    split
    · simp only
      split
      · exact startCab_softReset_limiterInv _
      · exact hs.congr (by simp) (by simp)
    · exact hs
  case scanCompletion =>
    refine whileRunning_keeps h hs ?_
    split
    · exact hs
    · exact completeScan_limiterInv ..
  all_goals exact hs.congr (by simpa using exec_lau h) (by simpa using exec_limiter h)

/-! ### The Record Unit -/

/-- A record queue without records, the numbers from 1 on, and a cleared tally. -/
theorem restart_recordInv (cause : ResetCause) (na : Fin 4) (s : State) : RecordInv (restart cause na s).records :=
  (RecordInv.fresh ..).2 ⟨by simp, by simp, rfl, by simp⟩

/-- SELECT_ASSORTMENT changes the assortment alone (R138). -/
theorem decideSelectAssortment_recordInv (f : List Byte) (u : State) (h : RecordInv u.records) :
    RecordInv (decideSelectAssortment f u).1.records := by
  unfold decideSelectAssortment
  simp only
  split
  · exact ⟨h.depth, h.next, h.numbers, h.displaced, h.sorts, h.ranges⟩
  · exact h

/-- A cleared tally and displaced count lie in their ranges (R139). -/
theorem RecordInv.openLoad {u : RecordUnit} (h : RecordInv u) (x : TallyState) : RecordInv (u.openLoad x) :=
  (RecordInv.fresh ..).2 ⟨h.depth, h.next, h.numbers, Nat.zero_le _⟩

theorem decideOpenLoad_recordInv (f : List Byte) (u : State) (h : RecordInv u.records) :
    RecordInv (decideOpenLoad f u).1.records := by
  unfold decideOpenLoad
  simp only
  split
  · exact h.openLoad _
  · split
    · exact h.openLoad _
    · exact h

/-- CLOSE_LOAD changes the tally state alone (R140). -/
theorem decideCloseLoad_recordInv (f : List Byte) (u : State) (h : RecordInv u.records) :
    RecordInv (decideCloseLoad f u).1.records :=
  ⟨h.depth, h.next, h.numbers, h.displaced, h.sorts, h.ranges⟩

/-- ACK_RECORDS removes records from the oldest on (R136). -/
theorem decideAckRecords_recordInv (f : List Byte) (u : State) (h : RecordInv u.records) :
    RecordInv (decideAckRecords f u).1.records := by
  unfold decideAckRecords
  split
  · exact h
  · rename_i rest newer
    obtain ⟨j, within, rfl⟩ := newerThan_eq_drop newer
    exact h.ack j within

/-- Every command keeps the invariant of the Record Unit. -/
theorem exec_recordInv {c : Instr} {s t : State} (hs : RecordInv s.records) (h : exec c s = .next t) :
    RecordInv t.records := by
  have request {req p d} (hd : ∀ f u, RecordInv u.records → RecordInv (d f u).1.records)
      (hx : exec c s = whileRunning s (serve req p d s)) : RecordInv t.records :=
    whileRunning_keeps (P := fun x => RecordInv x.records) (hx ▸ h) hs (serve_records_keeps hs hd)
  cases c
  case powerOn | supplyDip => cases h; exact restart_recordInv ..
  case scanCompletion =>
    refine whileRunning_keeps (P := fun x => RecordInv x.records) h hs ?_
    split
    · exact hs
    · rw [startCab_records, completeScan, lauTakes]
      exact RecordInv.weighTakes (by simpa using hs) _
  case windowTimerExpiry =>
    refine whileRunning_keeps (P := fun x => RecordInv x.records) h hs ?_
    split
    · rw [startCab_records]
      exact hs.weighWorks _
    · exact hs
  case selectAssortment => exact request decideSelectAssortment_recordInv rfl
  case openLoad => exact request decideOpenLoad_recordInv rfl
  case closeLoad => exact request decideCloseLoad_recordInv rfl
  case ackRecords => exact request decideAckRecords_recordInv rfl
  all_goals
    have same : t.records = s.records := by simpa using exec_records h
    rwa [same]

end Sys2Proof.Machine

open Sys2Proof Sys2Proof.Machine

/-- Settles O53: only a scan completion and the resets touch the load result and the Limiter, and each leaves them in
agreement. -/
theorem everyStepKeepsLimiterInvariant : Obligations.EveryStepKeepsLimiterInvariant := by
  intro s t hs h
  exact step_keeps (P := LimiterInv) (fun _ _ hx => hx.congr rfl rfl) (fun _ _ _ => exec_limiterInv) hs h

/-- Settles O54: every command keeps the form of the queue, and no number stands twice among the last 48. -/
theorem everyStepKeepsRecordInvariant : Obligations.EveryStepKeepsRecordInvariant := by
  refine ⟨fun s t hs h => ?_, fun u hu => ?_⟩
  · exact step_keeps (P := fun x => RecordInv x.records) (fun _ _ hx => hx) (fun _ _ _ => exec_recordInv) hs h
  · rw [hu.numbers]
    exact lastNumbers_nodup _ _ hu.next hu.depth
end

section
/-! The outputs at a step (R87 to R90), and the ownership of the crane (R65, R68, R75). -/

namespace Sys2Proof.Machine

/-! ### Outputs -/

/-- What a step may make of the output of a section: it grows neither outside ACTIVE nor in a RAISES direction while the
Limiter cuts, and it does not cross 0. -/
def OutputAllowed (axis : Option AxisRecord) (crane : CraneState) (lim : LimiterState) (before after : Int) : Prop :=
  (crane ≠ .active → after.natAbs ≤ before.natAbs) ∧
    (∀ a, lim.Cutting → axis = some a → InRaises a after → after.natAbs ≤ before.natAbs) ∧
    (before ≠ 0 → after ≠ 0 → (0 < before ↔ 0 < after))

section
variable {axis : Option AxisRecord} {crane : CraneState} {lim : LimiterState}

theorem OutputAllowed.same (x : Int) : OutputAllowed axis crane lim x x :=
  ⟨fun _ => le_rfl, fun _ _ _ _ => le_rfl, fun _ _ => .rfl⟩

theorem OutputAllowed.zero (x : Int) : OutputAllowed axis crane lim x 0 :=
  ⟨fun _ => Nat.zero_le _, fun _ _ _ _ => Nat.zero_le _, fun _ ne => absurd rfl ne⟩

end

/-- Two values on the same side of 0 lie in a RAISES direction together. -/
theorem InRaises.of_mul_pos {a : AxisRecord} {x y : Int} (h : InRaises a x) (side : 0 < x * y) : InRaises a y := by
  obtain ⟨pos, plus⟩ | ⟨neg, minus⟩ := h
  · exact .inl ⟨by_contra fun hy => absurd side (not_lt.2 (Int.mul_nonpos_of_nonneg_of_nonpos pos.le (by omega))), plus⟩
  · exact .inr ⟨by_contra fun hy => absurd side (not_lt.2 (Int.mul_nonpos_of_nonpos_of_nonneg neg.le (by omega))), minus⟩

/-- While the Limiter cuts, the effective target lies in no RAISES direction: the cut flag of a lever target in one is
set, and then the effective target is 0 (R86, R87). -/
theorem effectiveTarget_not_inRaises_of_cutting {a : AxisRecord} {lim : LimiterState} (cutting : lim.Cutting)
    (crane : CraneState) (warn : Nat) (target : Int) (cut : Bool) :
    ¬ InRaises a (effectiveTarget a crane lim warn target (cutAfter a lim target cut)) := by
  have zero : ¬ InRaises a 0 := by simp [InRaises]
  have notWarn : lim ≠ .warn := by rintro rfl; simp [LimiterState.Cutting, LimiterState.code] at cutting
  by_cases up : raises a target = true
  · have cutSet : cutAfter a lim target cut = true := by simp [cutAfter, up, (cuts_iff lim).2 cutting]
    unfold effectiveTarget
    split
    · exact zero
    · exact zero
  · unfold effectiveTarget
    split
    · exact zero
    · split
      · exact zero
      · rw [if_neg (by simp [notWarn])]
        exact fun h => up ((raises_iff a target).2 h)

/-- A step of one section is allowed (R85 to R91). -/
theorem stepSection_outputAllowed (axis : Option AxisRecord) (crane : CraneState) (lim : LimiterState) (warn : Nat)
    (target : Int) (r : Section) :
    OutputAllowed axis crane lim r.output (stepSection axis crane lim warn target r).output := by
  cases axis with
  | none => exact .zero _
  | some a =>
    obtain ⟨grows, side⟩ :=
      moveSection_outputs a (effectiveTarget a crane lim warn target (cutAfter a lim target r.cut)) r
    refine ⟨fun notActive => ?_, fun b cutting same up => ?_, side⟩
    · refine grows.resolve_right fun ⟨_, toward⟩ => ?_
      simp [effectiveTarget, notActive] at toward
    · cases same
      refine grows.resolve_right fun ⟨_, toward⟩ => ?_
      exact effectiveTarget_not_inRaises_of_cutting cutting _ _ _ _ (up.of_mul_pos toward)

/-- Presence zeroing leaves an output or sets it to 0 (R94). -/
theorem zeroSection_outputAllowed (axis : Option AxisRecord) (crane : CraneState) (lim : LimiterState) (r : Section) :
    OutputAllowed axis crane lim r.output (zeroSection axis r).output := by
  unfold zeroSection
  split
  · exact .same _
  · split
    · exact .same _
    · exact .zero _

/-- The sections after PRESENCE opens (R94). -/
theorem presenceZeroing_sections (s : State) (k : Fin 6) :
    (presenceZeroing s).shaper.sections.get k =
      zeroSection (sectionAxis s.tables.fmt.active k) (s.shaper.sections.get k) := by
  simp [presenceZeroing]

/-- Section `k` of a state stands where a step from another may take its output. -/
def SectionAllowed (s t : State) (k : Fin 6) : Prop :=
  OutputAllowed (sectionAxis s.tables.fmt.active k) s.demand.crane s.limiter.state (s.shaper.sections.get k).output
    (t.shaper.sections.get k).output

theorem SectionAllowed.of_same {s t : State} (same : t.shaper = s.shaper) (k : Fin 6) : SectionAllowed s t k := by
  unfold SectionAllowed
  rw [same]
  exact .same _

theorem SectionAllowed.of_atRest {s t : State} (rest : t.shaper.sections = Six.same .atRest) (k : Fin 6) :
    SectionAllowed s t k := by
  unfold SectionAllowed
  rw [rest, Six.get_same]
  exact .zero _

/-- Every command moves the outputs as it may. -/
theorem exec_sectionAllowed {c : Instr} {s t : State} (h : exec c s = .next t) (k : Fin 6) : SectionAllowed s t k := by
  have still : SectionAllowed s s k := .of_same rfl k
  cases c
  case powerOn | supplyDip => cases h; exact .of_atRest rfl k
  case softReset =>
    refine whileRunning_keeps (P := (SectionAllowed s · k)) h still ?_
    split
    · exact .of_atRest (by simp [softReset_sections]) k
    · exact still
  case responseTransmissionEnd =>
    refine whileRunning_keeps (P := (SectionAllowed s · k)) h still ?_
    split
    · simp only
      split
      · exact .of_atRest (by simp [softReset_sections]) k
      · exact .of_same (by simp) k
    · exact still
  case presenceOpens =>
    refine whileRunning_keeps (P := (SectionAllowed s · k)) h still ?_
    split
    · unfold SectionAllowed
      rw [startCab_shaper, presenceZeroing_sections]
      split <;> simpa using zeroSection_outputAllowed ..
    · exact still
  case shaperStep =>
    refine whileRunning_keeps (P := (SectionAllowed s · k)) h still ?_
    unfold SectionAllowed
    simp only
    split <;> simpa [sectionsAfterStep] using stepSection_outputAllowed ..
  all_goals exact .of_same (by simpa using exec_shaper h) k

/-! ### The owner and the crane -/

/-- No crane has become ACTIVE and no source has become the owner. -/
structure NoTakeover (d d' : DemandUnit) : Prop where
  crane : d'.crane = .active → d.crane = .active
  owner : ∀ o, d'.owner = some o → d.owner = some o

theorem NoTakeover.refl (d : DemandUnit) : NoTakeover d d :=
  ⟨id, fun _ => id⟩

/-- A move to a state other than ACTIVE. -/
theorem NoTakeover.moveCrane {dest : CraneState} (other : dest ≠ .active) (s : State) :
    NoTakeover s.demand (moveCrane dest s).demand :=
  ⟨fun active => by simp [other] at active, fun o => by simp⟩

/-- An ACTIVE crane to READY. -/
theorem NoTakeover.activeToReady (s : State) : NoTakeover s.demand (activeToReady s).demand :=
  ⟨fun active => absurd active (activeToReady_not_active s), fun o => by simp⟩

/-- A soft reset ends ownership and stows the crane (R83). -/
theorem NoTakeover.softReset (s : State) : NoTakeover s.demand (softReset s).demand := by
  rw [softReset_demand]
  exact ⟨fun active => by simp [DemandUnit.softReset] at active, fun o h => by simp [DemandUnit.softReset] at h⟩

theorem decideDeploy_noTakeover (f : List Byte) (u : State) : NoTakeover u.demand (decideDeploy f u).1.demand := by
  unfold decideDeploy
  split
  · refine .moveCrane ?_ u
    split <;> simp
  · exact .refl _

theorem decideStow_noTakeover (f : List Byte) (u : State) : NoTakeover u.demand (decideStow f u).1.demand :=
  .moveCrane (by simp) u

theorem fmtAccepted_noTakeover (u : State) : NoTakeover u.demand (fmtAccepted u).demand := by
  have ready := NoTakeover.activeToReady { u with demand := { u.demand with targets := Six.same 0 } }
  simpa [fmtAccepted] using ⟨ready.crane, ready.owner⟩

theorem decideCommit_noTakeover (f : List Byte) (u : State) : NoTakeover u.demand (decideCommit f u).1.demand := by
  unfold decideCommit
  split
  · exact .refl _
  · rename_i k _
    split
    · exact .refl _
    · cases k with
      | fmt => exact fmtAccepted_noTakeover { u with tables := u.tables.accept .fmt }
      | cal | bmt | rct | wpt => simpa [acceptedBy] using NoTakeover.refl u.demand

theorem serve_noTakeover {req : Option Request} {p : Bool} {d : List Byte → State → State × Reply} (s : State)
    (hd : ∀ f u, NoTakeover u.demand (d f u).1.demand) : NoTakeover s.demand (serve req p d s).demand :=
  serve_demand_keeps (P := NoTakeover s.demand) (.refl _) fun f u hu => hu ▸ hd f u

/-- The Crane Port's going OFF only takes an ACTIVE crane to READY (R78). -/
theorem busOff_noTakeover (id : PortId) (s : State) : NoTakeover s.demand (busOff id s).demand := by
  unfold busOff
  cases id with
  | cab => simpa using NoTakeover.refl s.demand
  | crane => simpa using NoTakeover.activeToReady (dropCraneFlight (setPort s .crane (portOf s .crane).goOff))

/-- Only a demand frame can make the crane ACTIVE or a source the owner. -/
theorem exec_noTakeover {c : Instr} {s t : State} (h : exec c s = .next t) :
    NoTakeover s.demand t.demand ∨ ∃ src data, c = .demandFrame src data := by
  have still := NoTakeover.refl s.demand
  have request {req p d} (hd : ∀ f u, NoTakeover u.demand (d f u).1.demand)
      (hx : exec c s = whileRunning s (serve req p d s)) : NoTakeover s.demand t.demand :=
    whileRunning_keeps (P := fun x => NoTakeover s.demand x.demand) (hx ▸ h) still (serve_noTakeover s hd)
  cases c
  case demandFrame => exact .inr ⟨_, _, rfl⟩
  all_goals left
  case powerOn | supplyDip =>
    cases h
    exact ⟨fun active => by simp [restart] at active, fun o ho => by simp [restart] at ho⟩
  case softReset =>
    refine whileRunning_keeps (P := fun x => NoTakeover s.demand x.demand) h still ?_
    split
    · simpa using NoTakeover.softReset (responseEnds s)
    · exact still
  case responseTransmissionEnd =>
    refine whileRunning_keeps (P := fun x => NoTakeover s.demand x.demand) h still ?_
    split
    · simp only
      split
      · simpa using NoTakeover.softReset (responseEnds s)
      · simpa using still
    · exact still
  case demandTimerExpiry =>
    refine whileRunning_keeps (P := fun x => NoTakeover s.demand x.demand) h still ?_
    split
    · exact still
    · have ready := NoTakeover.activeToReady
        { s with demand := { s.demand with owner := none, targets := Six.same 0, timer := none } }
      simp only [startCab_demand, raise_demand]
      exact ⟨ready.crane, fun o ho => by simp at ho⟩
  case presenceLineChange => cases h; exact ⟨id, fun _ => id⟩
  case presenceOpens =>
    refine whileRunning_keeps (P := fun x => NoTakeover s.demand x.demand) h still ?_
    split
    · simp only [startCab_demand, presenceZeroing_demand]
      split
      · exact ⟨fun active => by simp at active, fun o ho => by simpa using ho⟩
      · exact ⟨id, fun _ => id⟩
    · exact still
  case presenceCloses =>
    refine whileRunning_keeps (P := fun x => NoTakeover s.demand x.demand) h still ?_
    split
    · refine ⟨fun active => ?_, fun _ => id⟩
      simp only at active
      split at active
      · cases active
      · exact active
    · exact still
  case deploy => exact request decideDeploy_noTakeover rfl
  case stow => exact request decideStow_noTakeover rfl
  case commit => exact request decideCommit_noTakeover rfl
  case canError id role =>
    refine whileRunning_keeps (P := fun x => NoTakeover s.demand x.demand) h still ?_
    split
    · simp only
      split
      · simpa using busOff_noTakeover id (setPort s id ((portOf s id).withError role))
      · simpa using still
    · exact still
  all_goals
    have same : t.demand = s.demand := by simpa using exec_demand h
    rwa [same]

/-! ### A demand frame -/

/-- What an owner frame does to the crane state and the owner (R64, R75): its source stays the owner, and the crane
stays as it was but where `becomesActive` holds. -/
theorem ownerFrame_demand (src : DemandSource) (data : List Byte) (s : State) :
    (ownerFrame src data s).demand.owner =
        some { source := src, neutral := isNeutral s.tables.fmt.active (axisValues data) } ∧
      (ownerFrame src data s).demand.crane = if becomesActive data s then .active else s.demand.crane := by
  have edge (b : Bool) (u : State) : (if b then weighEdge u else u).demand = u.demand := by cases b <;> simp
  unfold ownerFrame
  simp only [edge]
  obtain ⟨crane, owner, -, -⟩ := setWeigh_same
    (if becomesActive data s = true then
      { ownerFrameWrites src data s with demand := { (ownerFrameWrites src data s).demand with crane := .active } }
      else ownerFrameWrites src data s).demand src (weighBit data)
  rw [crane, owner]
  split <;> exact ⟨rfl, rfl⟩

/-- What a granted take does to the crane state and the owner (R66). -/
theorem grantTake_demand (src : DemandSource) (data : List Byte) (s : State) :
    (∃ neutral, (grantTake src data s).demand.owner = some { source := src, neutral := neutral }) ∧
      (grantTake src data s).demand.crane ≠ .active := by
  refine ⟨⟨_, rfl⟩, ?_⟩
  show ((raise .owner (activeToReady s)).demand.setWeigh src (weighBit data)).crane ≠ .active
  rw [(setWeigh_same _ _ _).1]
  exact activeToReady_not_active s

/-- An accepted demand frame is an owner frame, a granted take or a dropped one (R64 to R68). -/
theorem takeDemandFrame_cases (src : DemandSource) (data : List Byte) (s : State) :
    ((∃ o, s.demand.owner = some o ∧ o.source = src) ∧ takeDemandFrame src data s = ownerFrame src data s) ∨
    (takeGranted s.demand.owner = true ∧ takeDemandFrame src data s = grantTake src data s) ∨
    takeDemandFrame src data s = s := by
  unfold takeDemandFrame
  split
  case isTrue owns =>
    unfold isOwner at owns
    split at owns
    · cases owns
    · rename_i o ho
      exact .inl ⟨⟨o, ho, by simpa using owns⟩, rfl⟩
  case isFalse =>
    split
    case isTrue granted => exact .inr (.inl ⟨granted.2, rfl⟩)
    case isFalse => exact .inr (.inr rfl)

/-- How the crane may become ACTIVE and the owner may change at a demand frame (R65, R68, R75). -/
structure FrameOwnership (src : DemandSource) (data : List Byte) (s : State) (d' : DemandUnit) : Prop where
  activates : s.demand.crane ≠ .active → d'.crane = .active →
    (∃ o, s.demand.owner = some o ∧ o.source = src) ∧ becomesActive data s = true
  holds : ∀ o p, s.demand.owner = some o → o.neutral = false → d'.owner = some p → p.source = o.source

theorem FrameOwnership.dropped (src : DemandSource) (data : List Byte) (s : State) :
    FrameOwnership src data s s.demand := by
  refine ⟨fun inactive active => absurd active inactive, fun o p ho _ hp => ?_⟩
  rw [ho] at hp
  cases hp
  rfl

theorem takeDemandFrame_ownership (src : DemandSource) (data : List Byte) (s : State) :
    FrameOwnership src data s (takeDemandFrame src data s).demand := by
  obtain ⟨owns, frame⟩ | ⟨granted, frame⟩ | frame := takeDemandFrame_cases src data s <;> rw [frame]
  · obtain ⟨owner, crane⟩ := ownerFrame_demand src data s
    refine ⟨fun inactive active => ⟨owns, ?_⟩, fun o p ho _ hp => ?_⟩
    · by_contra stays
      rw [crane, if_neg stays] at active
      exact inactive active
    · obtain ⟨o', ho', rfl⟩ := owns
      rw [ho'] at ho
      cases ho
      rw [owner] at hp
      cases hp
      rfl
  · obtain ⟨-, notActive⟩ := grantTake_demand src data s
    refine ⟨fun _ active => absurd active notActive, fun o _ ho held _ => ?_⟩
    rw [ho, takeGranted, held] at granted
    cases granted
  · exact .dropped src data s

/-- The reception of a demand frame does not change what its ownership looks at. -/
theorem exec_demandFrame_ownership {src : DemandSource} {data : List Byte} {s t : State}
    (h : exec (.demandFrame src data) s = .next t) : FrameOwnership src data s t.demand := by
  refine whileRunning_keeps (P := fun x => FrameOwnership src data s x.demand) h (.dropped src data s) ?_
  split
  · simp only
    split
    · exact .dropped src data s
    · rw [startCab_demand]
      obtain ⟨activates, holds⟩ := takeDemandFrame_ownership src data (cabReceives s)
      exact ⟨activates, holds⟩
  · exact .dropped src data s

end Sys2Proof.Machine

open Sys2Proof Sys2Proof.Machine

/-- Settles O58: only STEP lets an output grow, and every other command leaves it or sets it to 0. -/
theorem outputsGrowOnlyWhereAllowed : Obligations.OutputsGrowOnlyWhereAllowed := by
  intro s t k h
  obtain rfl | ⟨c, rest, -, run⟩ := step_cases h
  · exact SectionAllowed.of_same rfl k
  · exact exec_sectionAllowed run k

/-- Settles O60: a command that is no demand frame neither makes the crane ACTIVE nor brings a new owner, and a demand
frame does so only as an owner frame or as a granted take. -/
theorem craneActivatesOnlyAtNeutralOwnerFrame : Obligations.CraneActivatesOnlyAtNeutralOwnerFrame := by
  intro s t c h
  obtain ⟨crane, owner⟩ | ⟨src, data, rfl⟩ := exec_noTakeover h
  · refine ⟨fun inactive active => absurd (crane active) inactive, fun o p ho _ hp => ?_⟩
    cases ho.symm.trans (owner p hp)
    rfl
  · obtain ⟨activates, holds⟩ := exec_demandFrame_ownership h
    refine ⟨fun inactive active => ?_, holds⟩
    obtain ⟨⟨o, ho, owns⟩, becomes⟩ := activates inactive active
    obtain ⟨ready, neutral, presence, fmt, mode, joined⟩ := (becomesActive_iff data s).1 becomes
    exact ⟨src, data, o, rfl, ho, owns, neutral, ready, presence, fmt, (Port.up_iff _).2 ⟨mode, joined⟩⟩
end

section
/-! The crane and the weigh cycle (R64 to R80, R107 to R126) at every step. -/

namespace Sys2Proof.Machine

/-- A command that leaves the Demand Unit, the Weigh Unit and the active images, and takes the Crane Port neither from
ACTIVE nor from its bus. -/
theorem CraneInv.of_frame {s t : State} (h : CraneInv s) (demand : t.demand = s.demand) (weigh : t.weigh = s.weigh)
    (active : SameActive s.tables t.tables) (mode : s.crane.port.mode = .active → t.crane.port.mode = .active)
    (joined : s.crane.port.joined = true → t.crane.port.joined = true) : CraneInv t :=
  h.congr ⟨by rw [demand], by rw [demand], by rw [demand], by rw [demand], weigh,
    fun ne => active .fmt ▸ ne, fun ne => active .wpt ▸ ne, mode, joined⟩

/-- A scan completion keeps the invariant: of what it looks at, only the Weigh Unit's work matters (R107). -/
theorem completeScan_craneInv {s : State} (h : CraneInv s) (fixed : FixedTables) (counts : Six (BitVec 12)) :
    CraneInv (completeScan fixed counts s) := by
  unfold completeScan lauTakes
  exact weighTakes_craneInv (h.wrap (by simp) (by simp) (by simp) (by simp)) _

/-- The expiry of the demand timer ends ownership and sends an ACTIVE crane to READY (R70). -/
theorem demandLost_craneInv {s : State} (h : CraneInv s) :
    CraneInv (raise .demandLost (activeToReady
      { s with demand := { s.demand with owner := none, targets := Six.same 0, timer := none } })) := by
  have core : CraneCore
      { s with demand := { s.demand with owner := none, targets := Six.same 0, timer := none } } :=
    ⟨h.core.weigh, h.core.run, by simp⟩
  exact core.activeToReady.wrap rfl rfl rfl rfl

/-- PRESENCE opens takes the crane from ACTIVE to HELD (R76). -/
theorem presenceOpened_craneInv {s : State} (h : CraneInv s) :
    CraneInv
      (if s.demand.crane = .ready ∨ s.demand.crane = .active then
        moveCrane .held { s with demand := { s.demand with presence := .opened, presenceFilter := none } }
      else { s with demand := { s.demand with presence := .opened, presenceFilter := none } }) := by
  have core : CraneCore { s with demand := { s.demand with presence := .opened, presenceFilter := none } } :=
    ⟨h.core.weigh, h.core.run, h.core.timer⟩
  split
  · exact core.moveCrane (by simp)
  · rename_i other
    exact .ofParts (fun active => absurd (.inr active) other) core

/-- PRESENCE closes takes the crane from HELD to READY (R77). -/
theorem presenceClosed_craneInv {s : State} (h : CraneInv s) :
    CraneInv { s with
      demand :=
        { s.demand with
          presence := .closed, presenceFilter := none
          crane := if s.demand.crane = .held then .ready else s.demand.crane } } := by
  refine .ofParts (fun active => ?_) ⟨h.core.weigh, fun running => ?_, h.core.timer⟩
  · simp only at active
    split at active
    · cases active
    · obtain ⟨owner, -, rest⟩ := h.active active
      exact ⟨owner, rfl, rest⟩
  · obtain ⟨active, wpt⟩ := h.core.run running
    exact ⟨by simp [active], wpt⟩

/-- The expiry of the settle timer enters SAMPLING with the same cycle (R116). -/
theorem settled_craneInv {s : State} {c : Cycle} (h : CraneInv s) (settling : s.weigh.phase = .settling c) (busy : Bool) :
    CraneInv { s with weigh := enterSampling c busy s.weigh } := by
  have running : s.weigh.phase.running = true := by rw [settling]; rfl
  have attempt := h.core.weigh.attempt c (by rw [settling]; rfl)
  exact h.work ⟨h.core.weigh.enterSampling attempt busy, fun _ => .inr running⟩ rfl rfl rfl

/-- The expiry of the window timer ends the attempt (R121). -/
theorem windowEnded_craneInv {s : State} {c : Cycle} (h : CraneInv s) (sampling : s.weigh.phase = .sampling c)
    (busy : Bool) : CraneInv (weighWorks (endWindow c busy s.weigh) s) := by
  have running : s.weigh.phase.running = true := by rw [sampling]; rfl
  refine h.work ?_ (by simp) (by simp) (by simp)
  rw [weighWorks_weigh]
  exact (endWindow_ok h.core.weigh running).mono False.elim

theorem decideDeploy_craneInv (f : List Byte) (u : State) (h : CraneInv u) : CraneInv (decideDeploy f u).1 := by
  unfold decideDeploy
  split
  · refine h.core.moveCrane ?_
    split <;> simp
  · exact h

theorem decideStow_craneInv (f : List Byte) (u : State) (h : CraneInv u) : CraneInv (decideStow f u).1 :=
  h.core.moveCrane (by simp)

/-- A response that ends, with the soft reset that may take place there. -/
theorem responseEnds_craneInv {s : State} (h : CraneInv s) : CraneInv (responseEnds s) :=
  h.wrap rfl rfl rfl rfl

/-- Every command keeps the invariant of the crane and the weigh cycle. -/
theorem exec_craneInv {c : Instr} {s t : State} (hs : CraneInv s) (h : exec c s = .next t) : CraneInv t := by
  have request {req p d} (hd : ∀ f u, CraneInv u → CraneInv (d f u).1)
      (hx : exec c s = whileRunning s (serve req p d s)) : CraneInv t :=
    whileRunning_keeps (hx ▸ h) hs (serve_craneInv hs hd)
  cases c
  case powerOn | supplyDip => cases h; exact restart_craneInv ..
  case softReset =>
    refine whileRunning_keeps h hs ?_
    split
    · exact startCab_craneInv (softReset_craneInv (responseEnds_craneInv hs))
    · exact hs
  case responseTransmissionEnd =>
    refine whileRunning_keeps h hs ?_
    split
    · refine startCab_craneInv ?_
      split
      · exact softReset_craneInv (responseEnds_craneInv hs)
      · exact responseEnds_craneInv hs
    · exact hs
  case scanCompletion =>
    refine whileRunning_keeps h hs ?_
    split
    · exact hs
    · exact startCab_craneInv (completeScan_craneInv hs _ _)
  case demandFrame =>
    have received : CraneInv (cabReceives s) := hs.wrap rfl rfl rfl rfl
    refine whileRunning_keeps h hs ?_
    split
    · simp only
      split
      · exact received
      · exact startCab_craneInv (takeDemandFrame_craneInv received)
    · exact hs
  case demandTimerExpiry =>
    refine whileRunning_keeps h hs ?_
    split
    · exact hs
    · exact startCab_craneInv (demandLost_craneInv hs)
  case presenceLineChange =>
    cases h
    exact hs.congr ⟨rfl, .rfl, rfl, .rfl, rfl, id, id, id, id⟩
  case presenceOpens =>
    refine whileRunning_keeps h hs ?_
    split
    · exact startCab_craneInv ((presenceOpened_craneInv hs).wrap (by simp) (by simp) (by simp) (by simp))
    · exact hs
  case presenceCloses =>
    refine whileRunning_keeps h hs ?_
    split
    · exact presenceClosed_craneInv hs
    · exact hs
  case settleTimerExpiry =>
    refine whileRunning_keeps h hs ?_
    split
    · exact settled_craneInv hs ‹_› _
    · exact hs
  case windowTimerExpiry =>
    refine whileRunning_keeps h hs ?_
    split
    · exact startCab_craneInv (windowEnded_craneInv hs ‹_› _)
    · exact hs
  case deploy => exact request decideDeploy_craneInv rfl
  case stow => exact request decideStow_craneInv rfl
  case weighNow => exact request (d := decideWeighNow) (fun _ _ => requestCycle_craneInv) rfl
  case tare => exact request (d := decideTare) (fun _ _ => requestCycle_craneInv) rfl
  case cancelWeigh => exact request (fun _ _ => decideCancelWeigh_craneInv) rfl
  case commit => exact request (fun _ _ => decideCommit_craneInv) rfl
  case canError => exact execCanError_craneInv hs h
  all_goals
    have demand := by simpa using exec_demand h
    have weigh := by simpa using exec_weigh h
    have active : SameActive s.tables t.tables := by simpa using exec_sameActive h
    obtain same | ⟨mode, joined⟩ := by simpa using exec_crane_port h
    · exact hs.of_frame demand weigh active (fun m => by rw [same]; exact m) (fun j => by rw [same]; exact j)
    · exact hs.of_frame demand weigh active mode joined

end Sys2Proof.Machine

open Sys2Proof Sys2Proof.Machine

/-- Settles O52: every command keeps the invariant, most of them because they touch nothing that it looks at. -/
theorem everyStepKeepsCraneInvariant : Obligations.EveryStepKeepsCraneInvariant := by
  intro s t hs h
  exact step_keeps (P := CraneInv) (fun _ _ hx => hx.wrap rfl rfl rfl rfl) (fun _ _ _ => exec_craneInv) hs h
end

section
/-! The two transmitters (R100, R179, R184 to R188) at every step, and the state after reset. -/

namespace Sys2Proof.Machine

/-! ### Ports -/

theorem Port.afterReset_inv : PortInv .afterReset :=
  ⟨by decide, by decide, by decide, by decide⟩

/-- A run of recessive bits that does not bring the recovery (R187). -/
theorem PortInv.recessive {p : Port} (h : PortInv p) (off : p.mode = .off) (below : ¬ recoveryLimit ≤ p.recovery + 1) :
    PortInv { p with recovery := p.recovery + 1 } :=
  ⟨h.off, h.rx, Nat.not_le.1 below, fun active => by simp [off] at active⟩

/-- The joining of a port (R188). -/
theorem PortInv.join {p : Port} (h : PortInv p) : PortInv { p with joined := true } :=
  ⟨h.off, h.rx, h.recovery, h.idle⟩

/-! ### What the decisions leave of a pending soft reset -/

theorem decideReadStatus_srp (f : List Byte) (u : State) :
    (decideReadStatus f u).1.mgmt.softResetPending = u.mgmt.softResetPending := by
  unfold decideReadStatus
  simp only
  split <;> rfl

theorem decideSetNoticeMask_srp (f : List Byte) (u : State) :
    (decideSetNoticeMask f u).1.mgmt.softResetPending = u.mgmt.softResetPending := by
  unfold decideSetNoticeMask
  simp only
  split <;> rfl

theorem decideDeploy_srp (f : List Byte) (u : State) :
    (decideDeploy f u).1.mgmt.softResetPending = u.mgmt.softResetPending := by
  unfold decideDeploy
  split <;> simp

theorem decideStow_srp (f : List Byte) (u : State) :
    (decideStow f u).1.mgmt.softResetPending = u.mgmt.softResetPending := by
  simp [decideStow]

theorem decideCancelWeigh_srp (f : List Byte) (u : State) :
    (decideCancelWeigh f u).1.mgmt.softResetPending = u.mgmt.softResetPending := by
  unfold decideCancelWeigh
  simp only
  split <;> simp

theorem decideCommit_srp (f : List Byte) (u : State) :
    (decideCommit f u).1.mgmt.softResetPending = u.mgmt.softResetPending := by
  unfold decideCommit
  (repeat' split) <;> simp

/-! ### The Cab Port -/

theorem restart_cabInv (cause : ResetCause) (na : Fin 4) (s : State) : CabInv (restart cause na s) :=
  ⟨⟨Port.afterReset_inv, Nat.zero_le _, Nat.zero_le _, fun flight => absurd rfl flight, CabPort.flightOk_of_none rfl,
    fun pending => by cases pending⟩, fun up => by cases up⟩

/-- A correct reception at the Cab Port (R187). -/
theorem cabReceives_inv {s : State} (h : CabInv s) : CabInv (cabReceives s) :=
  ⟨⟨h.1.port.received, h.1.requests, h.1.responses, h.1.flight, h.1.response, h.1.reset⟩, h.2⟩

/-- The end of a response that is not the one a pending soft reset waits for: the newest response is still in the FIFO
(R181, R185). -/
theorem responseEnds_cabOk {s : State} (h : CabInv s) (up : s.cab.port.up = true) (waits : ¬ resetAtEnd s = true) :
    CabOk (responseEnds s) := by
  refine ⟨h.1.port.sent ((Port.up_iff _).1 up).1, h.1.requests, ?_, fun flight => absurd rfl flight,
    CabPort.flightOk_of_none rfl, fun pending => ?_⟩
  · have := h.1.responses
    simp only [responseEnds, List.length_drop]
    omega
  · obtain ⟨r, newest, code, status⟩ := h.1.reset pending
    refine ⟨r, ?_, code, status⟩
    show (s.cab.responses.drop 1).getLast? = some r
    match responses : s.cab.responses with
    | [] => simp [responses] at newest
    | [only] =>
      have same : only = r := by simpa [responses] using newest
      exact absurd (by simp [resetAtEnd, isResetResponse, requestOf, responses, same, code, status, requestOfCode,
        Status.code, show s.mgmt.softResetPending = true from pending]) waits
    | first :: second :: more => simpa [responses] using newest

/-- The end of a response, with the soft reset that may take place there (R181). -/
theorem responseEnd_cabInv {s : State} (h : CabInv s) (up : s.cab.port.up = true) :
    CabInv (startCab (if resetAtEnd s then softReset (responseEnds s) else responseEnds s)) := by
  refine startCab_inv ?_
  split
  · exact softReset_cabOk (h.1.port.sent ((Port.up_iff _).1 up).1) rfl
  · exact responseEnds_cabOk h up ‹_›

/-- The end of a notice (R185). -/
theorem noticeEnd_cabInv {s : State} (h : CabInv s) (up : s.cab.port.up = true) :
    CabInv (startCab { s with cab := { s.cab with port := s.cab.port.sent, flight := none } }) :=
  startCab_inv ⟨h.1.port.sent ((Port.up_iff _).1 up).1, h.1.requests, h.1.responses, fun flight => absurd rfl flight,
    CabPort.flightOk_of_none rfl, h.1.reset⟩

/-- A request frame enters a request FIFO that has room (R173). -/
theorem CabInv.append {s : State} (h : CabInv s) (frame : List Byte) (room : s.cab.requests.length < 4) :
    CabInv { s with cab := { s.cab with requests := s.cab.requests ++ [frame] } } :=
  ⟨⟨h.1.port, by simpa using room, h.1.responses, h.1.flight, h.1.response, h.1.reset⟩, h.2⟩

/-- A new record of a port of the same standing: it is up exactly where the old one was. -/
theorem CabInv.setPort {s : State} (h : CabInv s) (id : PortId) {p : Port} (inv : PortInv p)
    (same : p.up = (portOf s id).up) : CabInv (setPort s id p) := by
  cases id
  · exact ⟨⟨inv, h.1.requests, h.1.responses, fun flight => same ▸ h.1.flight flight, h.1.response, h.1.reset⟩,
      fun up => h.2 (same ▸ up)⟩
  · exact h.congr rfl rfl rfl

/-- A RESET_EXECUTE makes a soft reset pending only where it is answered OK (R181). -/
theorem decideResetExecute_pending_cases (f : List Byte) (u : State)
    (pending : (decideResetExecute f u).1.mgmt.softResetPending = true) :
    u.mgmt.softResetPending = true ∨ (decideResetExecute f u).2.status = .ok := by
  unfold decideResetExecute at *
  split at pending
  · rename_i prepared
    exact .inr (by rw [if_pos prepared]; rfl)
  · exact .inl pending

/-- A frame that carries RESET_EXECUTE has its code in byte 0 (10.1). -/
theorem requestOf_resetExecute {f : List Byte} (h : requestOf f = some .resetExecute) : byteAt f 0 = 0x61 := by
  unfold requestOf requestOfCode at h
  split at h <;> cases h
  exact BitVec.eq_of_toNat_eq ‹_›

/-- Every command keeps the Cab Port's part of the invariant. -/
theorem exec_cabInv {c : Instr} {s t : State} (hs : CabInv s) (h : exec c s = .next t) : CabInv t := by
  have request {req p d} (hd : ∀ f u, (d f u).1.cab = u.cab ∧
        (d f u).1.mgmt.softResetPending = u.mgmt.softResetPending)
      (hx : exec c s = whileRunning s (serve req p d s)) : CabInv t :=
    whileRunning_keeps (hx ▸ h) hs (serve_cabInv_of_eq hs hd)
  cases c
  case powerOn | supplyDip => cases h; exact restart_cabInv ..
  case supplyFallsBelowDipThreshold =>
    cases h
    exact ⟨⟨hs.1.port, hs.1.requests, hs.1.responses, hs.1.flight, hs.1.response, fun pending => by cases pending⟩,
      hs.2⟩
  case softReset =>
    refine whileRunning_keeps h hs ?_
    split
    · rename_i ends
      have := responseEnd_cabInv hs ends.1
      rwa [if_pos ends.2.2] at this
    · exact hs
  case responseTransmissionEnd =>
    refine whileRunning_keeps h hs ?_
    split
    · rename_i ends
      exact responseEnd_cabInv hs ends.1
    · exact hs
  case noticeTransmissionEnd =>
    refine whileRunning_keeps h hs ?_
    split
    · split
      · exact noticeEnd_cabInv hs ‹_›
      · exact hs
    · exact hs
    · exact hs
  case demandFrame =>
    refine whileRunning_keeps h hs ?_
    split
    · simp only
      split
      · exact cabReceives_inv hs
      · exact (cabReceives_inv hs).1.startCab (by simp) (by simp)
    · exact hs
  case requestFrameReceived =>
    refine whileRunning_keeps h hs ?_
    split
    · simp only
      split
      · exact cabReceives_inv hs
      · rename_i accepted
        exact (cabReceives_inv hs).append _ (by simp [fifoLimit] at accepted ⊢; omega)
    · exact hs
  case canError id role =>
    refine whileRunning_keeps h hs ?_
    split
    · rename_i erring
      simp only
      split
      · rename_i passed
        cases id
        · exact startCab_inv (busOff_cabOk hs erring.1 role passed)
        · exact hs.1.startCab (by simp [busOff, setPort]) (by simp [busOff, setPort])
      · rename_i within
        cases id
        · exact hs.setPort .cab (withError_inv hs.1.port ((Port.up_iff _).1 erring.1).1 role within)
            ((withError_up erring.1 role).trans erring.1.symm)
        · exact hs.congr rfl rfl rfl
    · exact hs
  case portRecovery id =>
    refine whileRunning_keeps h hs ?_
    split
    · rename_i off
      exact recoverPort_cabInv hs off.1
    · exact hs
  case recessiveRunWhileOff id =>
    refine whileRunning_keeps h hs ?_
    simp only
    split
    · rename_i off
      split
      · exact recoverPort_cabInv hs off
      · cases id
        · exact hs.setPort .cab (hs.1.port.recessive off ‹_›) rfl
        · exact hs.congr rfl rfl rfl
    · exact hs
  case portJoin id =>
    refine whileRunning_keeps h hs ?_
    split
    · exact hs
    · rename_i apart
      cases id
      · have idle : s.cab.flight = none := by
          by_contra flight
          exact apart ((Port.up_iff _).1 (hs.1.flight flight)).2
        exact startCab_inv ⟨hs.1.port.join, hs.1.requests, hs.1.responses, fun flight => absurd idle flight,
          hs.1.response, hs.1.reset⟩
      · exact hs.1.startCab (by simp [setPort]) (by simp [setPort])
  case filteredFrame id _ =>
    refine whileRunning_keeps h hs ?_
    split
    · cases id
      · exact hs.setPort .cab hs.1.port.received rfl
      · exact hs.congr rfl rfl rfl
    · exact hs
  case readStatus => exact request (fun f u => ⟨by simp, decideReadStatus_srp f u⟩) rfl
  case readNotices => exact request (d := decideReadNotices) (fun _ _ => ⟨rfl, rfl⟩) rfl
  case setNoticeMask => exact request (fun f u => ⟨by simp, decideSetNoticeMask_srp f u⟩) rfl
  case deploy => exact request (fun f u => ⟨by simp, decideDeploy_srp f u⟩) rfl
  case stow => exact request (fun f u => ⟨by simp, decideStow_srp f u⟩) rfl
  case cancelWeigh => exact request (fun f u => ⟨by simp, decideCancelWeigh_srp f u⟩) rfl
  case commit => exact request (fun f u => ⟨by simp, decideCommit_srp f u⟩) rfl
  case resetExecute =>
    refine whileRunning_keeps h hs (serve_cabInv hs fun f u code => ⟨by simp, fun pending => ?_⟩)
    exact (decideResetExecute_pending_cases f u pending).imp_right fun ok => ⟨ok, requestOf_resetExecute code⟩
  case scanCompletion | demandTimerExpiry | presenceOpens | windowTimerExpiry =>
    refine whileRunning_keeps h hs ?_
    (repeat' split) <;> first | exact hs | exact hs.1.startCab (by simp) (by simp)
  case persistItemEnd =>
    refine whileRunning_keeps h hs ?_
    split
    · exact hs
    · simp only
      split
      · exact hs.congr rfl rfl rfl
      · exact hs.1.startCab rfl rfl
  case presenceLineChange | serviceKeyLineChange => cases h; exact hs.congr rfl rfl rfl
  case selectAssortment | openLoad | closeLoad | readTally | readRecord | ackRecords | weighNow | tare | openTable |
      writeWords | readWords | discard | setProtection | persist | resetPrepare | unknownRequest =>
    exact request (fun _ _ => ⟨by simp, by simp⟩) rfl
  case scanTimerExpiry | slewTiltFrame | slewTimerExpiry | presenceCloses | keyLevelChange | shaperStep |
      valveTransmissionEnd | refreshTimerExpiry | settleTimerExpiry =>
    refine whileRunning_keeps h hs ?_
    (try simp only); (repeat' split) <;> first | exact hs | exact hs.congr (by simp) (by simp) (by simp)

/-! ### The Crane Port -/

theorem restart_cranePortInv (cause : ResetCause) (na : Fin 4) (s : State) : CranePortInv (restart cause na s) :=
  ⟨⟨Port.afterReset_inv, fun _ flight => by cases flight⟩, fun _ _ => rfl⟩

/-- A new record of a port of the same standing: it is up exactly where the old one was. -/
theorem CranePortInv.setPort {s : State} (h : CranePortInv s) (id : PortId) {p : Port} (inv : PortInv p)
    (same : p.up = (portOf s id).up) : CranePortInv (setPort s id p) := by
  cases id
  · exact h.congr rfl rfl
  · exact ⟨⟨inv, fun f flight => ⟨same.trans (h.1.flight f flight).1, (h.1.flight f flight).2⟩⟩,
      fun up => h.2 (same ▸ up)⟩

/-- A correct reception at the Crane Port (R187). -/
theorem craneReceives_inv {s : State} (h : CranePortInv s) : CranePortInv (craneReceives s) :=
  h.setPort .crane h.1.port.received rfl

/-- The end of a valve frame (R100, R187). -/
theorem valveEnd_inv {s : State} (h : CranePortInv s) (up : s.crane.port.up = true) :
    CranePortInv (startValve (restartRefresh { s with crane := { port := s.crane.port.sent, flight := none } })) :=
  startValve_inv ⟨h.1.port.sent ((Port.up_iff _).1 up).1, fun _ flight => by cases flight⟩

/-- The presence zeroing requests a valve frame (R94). -/
theorem presenceZeroing_inv {u : State} (h : CraneOk u) : CranePortInv (presenceZeroing u) :=
  requestValve_inv (h.congr rfl)

theorem decideCommit_cranePortInv (f : List Byte) {u : State} (h : CranePortInv u) :
    CranePortInv (decideCommit f u).1 := by
  unfold decideCommit
  split
  · exact h
  · split
    · exact h
    · rename_i k _ _ _
      cases k
      case fmt => exact requestValve_inv (h.1.congr (by simp))
      case cal | bmt | rct | wpt => exact h.congr (by simp [acceptedBy]) (by simp [acceptedBy])

/-- Every command keeps the Crane Port's part of the invariant. -/
theorem exec_cranePortInv {c : Instr} {s t : State} (hs : CranePortInv s) (h : exec c s = .next t) :
    CranePortInv t := by
  have request {req p d} (hd : ∀ f u, CranePortInv u → CranePortInv (d f u).1)
      (hx : exec c s = whileRunning s (serve req p d s)) : CranePortInv t :=
    whileRunning_keeps (hx ▸ h) hs (serve_cranePortInv hs hd)
  cases c
  case powerOn | supplyDip => cases h; exact restart_cranePortInv ..
  case softReset =>
    refine whileRunning_keeps h hs ?_
    split
    · exact (softReset_cranePortInv (s := responseEnds s) (hs.congr rfl rfl)).congr (by simp) (by simp)
    · exact hs
  case responseTransmissionEnd =>
    refine whileRunning_keeps h hs ?_
    split
    · simp only
      split
      · exact (softReset_cranePortInv (s := responseEnds s) (hs.congr rfl rfl)).congr (by simp) (by simp)
      · exact hs.congr (by simp [responseEnds]) (by simp [responseEnds])
    · exact hs
  case slewTiltFrame =>
    refine whileRunning_keeps h hs ?_
    split
    · simp only
      split
      · exact (craneReceives_inv hs).congr rfl rfl
      · exact craneReceives_inv hs
    · exact hs
  case presenceOpens =>
    refine whileRunning_keeps h hs ?_
    split
    · refine (presenceZeroing_inv (hs.1.congr ?_)).congr (startCab_crane _) (by simp)
      split <;> simp
    · exact hs
  case shaperStep =>
    refine whileRunning_keeps h hs ?_
    simp only
    split
    · exact hs.congr rfl rfl
    · exact requestValve_inv (hs.1.congr rfl)
  case valveTransmissionEnd =>
    refine whileRunning_keeps h hs ?_
    split
    · rename_i ends
      exact valveEnd_inv hs ends.1
    · exact hs
  case refreshTimerExpiry =>
    refine whileRunning_keeps h hs ?_
    split
    · exact hs
    · exact requestValve_inv (hs.1.congr rfl)
  case canError id role =>
    refine whileRunning_keeps h hs ?_
    split
    · rename_i erring
      simp only
      split
      · rename_i passed
        cases id
        · exact hs.congr (by simp [busOff, setPort]) (by simp [busOff, setPort])
        · exact busOff_cranePortInv hs erring.1 role passed
      · rename_i within
        cases id
        · exact hs.congr rfl rfl
        · exact hs.setPort .crane (withError_inv hs.1.port ((Port.up_iff _).1 erring.1).1 role within)
            ((withError_up erring.1 role).trans erring.1.symm)
    · exact hs
  case portRecovery id =>
    refine whileRunning_keeps h hs ?_
    split
    · rename_i off
      exact recoverPort_cranePortInv hs off.1
    · exact hs
  case recessiveRunWhileOff id =>
    refine whileRunning_keeps h hs ?_
    simp only
    split
    · rename_i off
      split
      · exact recoverPort_cranePortInv hs off
      · cases id
        · exact hs.congr rfl rfl
        · exact hs.setPort .crane (hs.1.port.recessive off ‹_›) rfl
    · exact hs
  case portJoin id =>
    refine whileRunning_keeps h hs ?_
    split
    · exact hs
    · rename_i apart
      cases id
      · exact hs.congr (by simp [startWaiting, setPort]) (by simp [startWaiting, setPort])
      · have idle : s.crane.flight = none := by
          by_contra flight
          obtain ⟨f, flight⟩ := Option.ne_none_iff_exists'.1 flight
          exact apart ((Port.up_iff _).1 (hs.1.flight f flight).1).2
        exact startValve_startCab_inv ⟨hs.1.port.join, fun f flight => by cases idle.symm.trans flight⟩
  case filteredFrame id _ =>
    refine whileRunning_keeps h hs ?_
    split
    · cases id
      · exact hs.congr rfl rfl
      · exact hs.setPort .crane hs.1.port.received rfl
    · exact hs
  case commit => exact request (fun f _ => decideCommit_cranePortInv f) rfl
  case readStatus | readNotices | setNoticeMask | deploy | stow | cancelWeigh | resetExecute | selectAssortment |
      openLoad | closeLoad | readTally | readRecord | ackRecords | weighNow | tare | openTable | writeWords | readWords |
      discard | setProtection | persist | resetPrepare | unknownRequest =>
    exact request (fun _ _ hu => hu.congr (by simp) (by simp)) rfl
  case supplyFallsBelowDipThreshold | presenceLineChange | serviceKeyLineChange => cases h; exact hs.congr rfl rfl
  case scanTimerExpiry | scanCompletion | slewTimerExpiry | demandFrame | demandTimerExpiry | presenceCloses |
      keyLevelChange | settleTimerExpiry | windowTimerExpiry | requestFrameReceived | noticeTransmissionEnd |
      persistItemEnd =>
    refine whileRunning_keeps h hs ?_
    (try simp only); (repeat' split) <;> first | exact hs | exact hs.congr (by simp) (by simp)

/-- Every command keeps the invariant of the transmitters. -/
theorem exec_transmitterInv {c : Instr} {s t : State} (hs : TransmitterInv s) (h : exec c s = .next t) :
    TransmitterInv t := by
  obtain ⟨cab, crane⟩ := (transmitterInv_iff s).1 hs
  exact (transmitterInv_iff t).2 ⟨exec_cabInv cab h, exec_cranePortInv crane h⟩

/-! ### The state after reset -/

/-- The state after reset is what a POWER_ON makes of it. -/
theorem reset_eq_restart : State.reset = restart .powerOn 3 State.reset := by
  rfl

end Sys2Proof.Machine

open Sys2Proof Sys2Proof.Machine

/-- Settles O56: the two ports' parts of the invariant are kept apart, each by every command. -/
theorem everyStepKeepsTransmitterInvariant : Obligations.EveryStepKeepsTransmitterInvariant := by
  intro s t hs h
  exact step_keeps (P := TransmitterInv)
    (fun _ _ hx => ⟨hx.1, hx.2, hx.3, hx.4, hx.5, hx.6, hx.7, hx.8, hx.9, hx.10⟩) (fun _ _ _ => exec_transmitterInv) hs h

/-- Settles O57: the state after reset is a restarted one, and a restart brings each invariant. -/
theorem resetMeetsTheInvariants : Obligations.ResetMeetsTheInvariants := by
  unfold Obligations.ResetMeetsTheInvariants
  rw [reset_eq_restart]
  exact ⟨restart_craneInv .., .of_noData rfl rfl, restart_recordInv .., .loaded ..,
    (transmitterInv_iff _).2 ⟨restart_cabInv .., restart_cranePortInv ..⟩⟩
end

section
/-! The queue of commands, and the resets (R169 to R172, R181 to R184). -/

namespace Sys2Proof.Machine

/-! ### Every command answers -/

theorem whileRunning_answers (s u : State) : ∃ t, whileRunning s u = .next t := by
  unfold whileRunning
  split <;> exact ⟨_, rfl⟩

theorem exec_answers (c : Instr) (s : State) : ∃ t, exec c s = .next t := by
  cases c
  case powerOn | supplyDip | presenceLineChange | serviceKeyLineChange | supplyFallsBelowDipThreshold => exact ⟨_, rfl⟩
  all_goals exact whileRunning_answers ..

/-- Held in reset, the part takes no command but the restarts, the changes of its lines and the fall of its supply. -/
theorem exec_held {c : Instr} {s : State} (held : s.power = .heldInReset) (powerOn : ∀ a b, c ≠ .powerOn a b)
    (supplyDip : ∀ a b, c ≠ .supplyDip a b) (presence : c ≠ .presenceLineChange) (key : c ≠ .serviceKeyLineChange)
    (falls : c ≠ .supplyFallsBelowDipThreshold) : exec c s = .next s := by
  cases c
  case powerOn a b => exact absurd rfl (powerOn a b)
  case supplyDip a b => exact absurd rfl (supplyDip a b)
  case presenceLineChange => exact absurd rfl presence
  case serviceKeyLineChange => exact absurd rfl key
  case supplyFallsBelowDipThreshold => exact absurd rfl falls
  all_goals exact whileRunning_held _ held

theorem losePersist_persist (t : TableStore) : t.losePersist.persist = .idle := by
  unfold TableStore.losePersist
  split
  · assumption
  · rfl

/-- The fall of the supply touches the PERSIST in progress and its item alone (R169). -/
theorem losePersist_eq (t : TableStore) : t.losePersist = { t with persist := .idle, stored := t.losePersist.stored } := by
  unfold TableStore.losePersist
  split
  · rename_i idle
    rw [← idle]
  · rfl

/-! ### Restarts -/

/-- A restart after the fall of the supply: the meaning of POWER_ON and of SUPPLY_DIP (R169 to R171). -/
theorem exec_restart {na0 na1 : Bool} {s : State} {c : Instr} (h : c = .powerOn na0 na1 ∨ c = .supplyDip na0 na1) :
    ∃ cause, exec c s = .next (restart cause (nodeAddress na0 na1) (supplyFalls s)) := by
  obtain rfl | rfl := h
  · exact ⟨.powerOn, rfl⟩
  · exact ⟨.supplyDip, rfl⟩

theorem nodeAddress_val (na0 na1 : Bool) :
    (nodeAddress na0 na1).val = (if na0 then 1 else 0) + (if na1 then 2 else 0) := by
  cases na0 <;> cases na1 <;> rfl

theorem loadKind_active_eq_some {k : Kind} {x : Stored} {ws : Image} :
    (loadKind k x).active = some ws ↔ ws.length = k.words ∧ ∃ sum, x = .image ws sum ∧ sum.toNat = wordSum ws :=
  checkedWords_eq_some

/-- A settings record in form gives its words (R171). -/
theorem loadSettings_valid {x : Stored} {ws : Image} {sum : Word} (hx : x = .image ws sum) (length : ws.length = 6)
    (check : sum.toNat = wordSum ws) (mode : fieldAt ws 0 ≤ 2) (set : fieldAt ws 1 < 32) (mask : fieldAt ws 3 < 4096)
    (low : -500 ≤ signedFieldAt ws 2) (high : signedFieldAt ws 2 ≤ 500) :
    (loadSettings x).mode.code = fieldAt ws 0 ∧ (loadSettings x).protectSet.toNat = fieldAt ws 1 ∧
      (loadSettings x).tare = signedFieldAt ws 2 ∧ (loadSettings x).mask.toNat = fieldAt ws 3 := by
  obtain ⟨m, valid, code⟩ := settingsOfWords_valid mode set mask low high
  unfold loadSettings
  rw [checkedWords_eq_some.2 ⟨length, sum, hx, check⟩, Option.bind_some, valid, Option.getD_some]
  exact ⟨code, by simp only [BitVec.toNat_ofNat]; omega, rfl, by simp only [BitVec.toNat_ofNat]; omega⟩

/-- Any other settings record gives the defaults (R171). -/
theorem loadSettings_invalid {x : Stored}
    (h : ∀ ws sum, x = .image ws sum → ¬ (ws.length = 6 ∧ sum.toNat = wordSum ws ∧ fieldAt ws 0 ≤ 2 ∧
      fieldAt ws 1 < 32 ∧ fieldAt ws 3 < 4096 ∧ -500 ≤ signedFieldAt ws 2 ∧ signedFieldAt ws 2 ≤ 500)) : loadSettings x = .default := by
  unfold loadSettings
  match checked : checkedWords 6 x with
  | none => rfl
  | some ws =>
    obtain ⟨length, sum, hx, check⟩ := checkedWords_eq_some.1 checked
    rw [Option.bind_some, settingsOfWords_invalid fun fields => h ws sum hx ⟨length, check, fields⟩]
    rfl

/-! ### The soft reset -/

/-- What the soft reset writes before the weigh cycle and the valve frame are dealt with (R182). -/
def softResetBlocks (s : State) : State :=
  { s with
    cab := { s.cab with requests := [], responses := [] }
    lau := none
    limiter := { state := .fault .noData, u := 0 }
    demand := s.demand.softReset
    shaper := { s.shaper with sections := Six.same .atRest }
    tables := s.tables.softReset
    mgmt := s.mgmt.softReset }

theorem softReset_of_atRest {s : State} (h : ∀ k, (s.shaper.sections.get k).output = 0) :
    softReset s = weighSoftReset (softResetBlocks s) := by
  refine if_neg fun moving => ?_
  obtain ⟨k, nonzero⟩ := (Six.any_iff ..).1 moving
  simp [h k] at nonzero

/-- A section that was moving brings a valve frame (R96). -/
theorem softReset_of_moving {s : State} (h : ∃ k, (s.shaper.sections.get k).output ≠ 0) :
    softReset s = valveRequested (weighSoftReset (softResetBlocks s)) := by
  obtain ⟨k, nonzero⟩ := h
  rw [← requestValve_eq]
  exact if_pos ((Six.any_iff ..).2 ⟨k, by simpa using nonzero⟩)

/-- The Weigh Unit at a soft reset, by its state (R128). -/
theorem weighSoftReset_eq (u : State) :
    weighSoftReset u = match u.weigh.phase with
      | .settling _ => cycleAborted .reset u
      | .sampling _ => cycleAborted .reset u
      | .armed => { u with weigh := { u.weigh with phase := .idle, settleTimer := none, windowTimer := none } }
      | .idle => { u with weigh := { u.weigh with settleTimer := none, windowTimer := none } } := by
  unfold weighSoftReset
  rw [abortCycle_eq, abortedIfRunning]
  cases phase : u.weigh.phase
  case settling | sampling | armed => rfl
  case idle => simp [phase, WeighPhase.running]

/-- The end of the RESET_EXECUTE response under either of its names (R181; log entry 3). -/
theorem exec_softReset {s : State} {c : Instr} {r : List Byte} {more : List (List Byte)} {sentOn : Nat}
    (hc : c = .softReset ∨ c = .responseTransmissionEnd) (running : s.power = .running)
    (active : s.cab.port.mode = .active) (joined : s.cab.port.joined = true)
    (flight : s.cab.flight = some (.response sentOn)) (oldest : s.cab.responses = r :: more)
    (code : byteAt r 0 = 0x61) (ok : byteAt r 1 = 0) (pending : s.mgmt.softResetPending = true) :
    exec c s = .next (startCab (softReset (responseEnds s))) := by
  have up : s.cab.port.up = true := (Port.up_iff _).2 ⟨active, joined⟩
  have sends : s.cab.sendsResponse = true := by simp [CabPort.sendsResponse, flight]
  have atEnd : resetAtEnd s = true := by
    simp [resetAtEnd, isResetResponse, requestOf, oldest, code, ok, pending, requestOfCode, Status.code]
  obtain rfl | rfl := hc
  · refine (whileRunning_running _ running).trans ?_
    rw [if_pos ⟨up, sends, atEnd⟩]
  · refine (whileRunning_running _ running).trans ?_
    rw [if_pos ⟨up, sends⟩]
    simp only [atEnd, if_true]

end Sys2Proof.Machine

open Sys2Proof Sys2Proof.Machine

/-- Settles O1. -/
theorem stepRunsFrontCommand : Obligations.StepRunsFrontCommand := by
  refine ⟨fun c rest s front => ?_, fun s idle => ?_⟩
  · rw [step, front]
  · rw [step, idle]

/-- Settles O2. -/
theorem everyCommandAnswersNext : Obligations.EveryCommandAnswersNext := by
  intro c s
  obtain ⟨t, answers⟩ := exec_answers c s
  exact ⟨t, answers, exec_pending answers⟩

/-- Settles O3. -/
theorem supplyFallHoldsInReset : Obligations.SupplyFallHoldsInReset := by
  refine ⟨fun s => ⟨supplyFalls s, rfl, rfl, losePersist_persist _, supplyFalls_stored_item s, ?_⟩,
    fun c s held => exec_held held⟩
  show { s with
    power := .heldInReset, tables := s.tables.losePersist, mgmt := { s.mgmt with softResetPending := false } } = _
  rw [losePersist_eq]
  rfl

/-- Settles O4: every clause but the straps is a field of the restarted state. -/
theorem restartResetsEveryBlock : Obligations.RestartResetsEveryBlock := by
  intro na0 na1 s c cause hc
  have runs : exec c s = .next (restart cause (nodeAddress na0 na1) (supplyFalls s)) := by
    obtain ⟨rfl, rfl⟩ | ⟨rfl, rfl⟩ := hc <;> rfl
  refine ⟨_, runs, rfl, rfl, rfl, rfl, ?ports, nodeAddress_val na0 na1, rfl, rfl, rfl, rfl, rfl, rfl, rfl, rfl,
    ?channels, rfl, rfl, rfl, rfl, ?targets, rfl, rfl, rfl, rfl, rfl, rfl, ?sections, rfl, ?refresh, rfl, rfl, rfl, rfl,
    rfl, rfl, rfl, rfl, rfl, rfl, rfl, ?shadows, rfl, rfl, rfl, rfl, rfl, rfl, rfl, rfl, rfl, rfl, rfl, rfl, rfl, rfl⟩
  case ports => rintro p (rfl | rfl) <;> exact ⟨rfl, rfl, rfl, rfl, rfl⟩
  case channels => exact Six.get_same _
  case targets => exact Six.get_same _
  case sections => exact Six.get_same _
  case refresh => rfl
  case shadows => intro k; cases k <;> rfl

/-- Settles O5. -/
theorem startUpLoadsTheStore : Obligations.StartUpLoadsTheStore := by
  intro na0 na1 s c hc
  obtain ⟨cause, runs⟩ := exec_restart (s := s) hc
  have stored := supplyFalls_stored_item s
  have settings : (supplyFalls s).tables.stored.settings = storedAfterFall s .settings := stored .settings
  have kind (k : Kind) : (restart cause (nodeAddress na0 na1) (supplyFalls s)).tables.kind k =
      loadKind k (storedAfterFall s k.item) := by
    rw [← stored]
    exact loadedTables_kind ..
  refine ⟨_, runs, stored, ?_, ?_, ?_, ?_⟩
  · intro k ws
    rw [kind, loadKind_active_eq_some]
  · intro k
    rw [kind]
    rfl
  · intro ws sum image length check mode set mask low high
    exact loadSettings_valid (settings.trans image) length check mode set mask low high
  · intro invalid
    have default : loadSettings (supplyFalls s).tables.stored.settings = .default :=
      loadSettings_invalid (by rwa [settings])
    unfold restart
    simp only [default]
    exact ⟨rfl, rfl, rfl, rfl⟩

/-- Settles O6. -/
theorem softResetTakesPlace : Obligations.SoftResetTakesPlace := by
  intro s c r more sentOn hc running active joined flight oldest code ok pending
  refine ⟨softResetBlocks (responseEnds s), weighSoftReset (softResetBlocks (responseEnds s)), _,
    exec_softReset hc running active joined flight oldest code ok pending, rfl, weighSoftReset_eq _, ?_, ?_⟩
  · intro atRest
    rw [softReset_of_atRest (s := responseEnds s) atRest]
    exact startCab_spec _
  · intro moving
    rw [softReset_of_moving (s := responseEnds s) moving]
    exact startCab_spec _
end

section
/-! The Scan Unit: its timers, a scan completion and the slew record (R1 to R14). -/

namespace Sys2Proof.Machine

/-! ### Channels -/

/-- The engineering value where the span is not 0 and the limits are in order (R4). -/
theorem engineeringValue_eq {k : CalRecord} (limits : k.lo ≤ k.hi) (span : k.full ≠ k.zero) (n : BitVec 12) :
    engineeringValue k n =
      max k.lo (min k.hi (k.lo + Int.tdiv ((n.toNat - k.zero) * (k.hi - k.lo)) (k.full - k.zero))) := by
  have nonzero : k.full - k.zero ≠ 0 := by omega
  rw [engineeringValue, calQuotient, if_neg nonzero, clamp_eq limits]

/-- A channel that is out (R7). -/
theorem windowCount_out (c : Channel) :
    windowCount true c =
      { c with outCount := min (c.outCount + 1) 3, inCount := 0, faulted := c.faulted || c.outCount == 2 } :=
  rfl

/-- A channel that is in (R8). -/
theorem windowCount_in (c : Channel) :
    windowCount false c =
      { c with outCount := 0, inCount := min (c.inCount + 1) 3, faulted := c.faulted && c.inCount != 2 } :=
  rfl

theorem channelsAfter_get (cal : Option Image) (counts : Six (BitVec 12)) (cs : Six Channel) (i : Fin 6) :
    (channelsAfter cal counts cs).get i = channelAfter cal i (counts.get i) (cs.get i) :=
  Six.get_build _ i

theorem faultsChanged_iff (before after : Six Channel) :
    faultsChanged before after = true ↔ ∃ i, (after.get i).faulted ≠ (before.get i).faulted := by
  simp only [faultsChanged, List.any_eq_true, mem_allAxes, true_and, bne_iff_ne, ne_comm]

/-! ### The scan record -/

theorem engineeringOf_eq_none {cal : Option Image} {counts : Six (BitVec 12)} :
    engineeringOf cal counts = none ↔ cal = none :=
  Option.map_eq_none_iff

/-- The values handed over are those of the channel records (R11). -/
theorem engineeringOf_eq_some {cal : Option Image} {counts : Six (BitVec 12)} {e : Engineering}
    (h : engineeringOf cal counts = some e) (cs : Six Channel) :
    ((channelsAfter cal counts cs).get 0).value = some e.pPiston ∧
      ((channelsAfter cal counts cs).get 1).value = some e.pRod ∧
      ((channelsAfter cal counts cs).get 2).value = some e.angBoom ∧
      ((channelsAfter cal counts cs).get 3).value = some e.angJib ∧
      ((channelsAfter cal counts cs).get 4).value = some e.ext := by
  obtain ⟨ws, rfl, rfl⟩ := Option.map_eq_some_iff.1 h
  exact ⟨rfl, rfl, rfl, rfl, rfl⟩

/-- A fault of SUPPLY is a fault of every channel (R10). -/
theorem channelValid_iff (cs : Six Channel) (i : Fin 6) :
    (channelValid cs).get i = true ↔ (cs.get i).faulted = false ∧ (cs.get 5).faulted = false := by
  rw [channelValid, Six.get_build, Bool.and_eq_true, Bool.not_eq_true', Bool.not_eq_true']
  rfl

/-! ### What a completion leaves -/

/-- A free Cab Port starts a frame or leaves everything. -/
theorem startCab_cab (u : State) : (startCab u).cab = { u.cab with flight := (startCab u).cab.flight } := by
  unfold startCab
  split
  · split
    · rfl
    · split <;> rfl
  · rfl

/-- The blocks that a scan completion writes, and no other. -/
theorem completion_frame (fixed : FixedTables) (counts : Six (BitVec 12)) (s : State) :
    startCab (completeScan fixed counts s) =
      { s with
        scan := (startCab (completeScan fixed counts s)).scan
        lau := (startCab (completeScan fixed counts s)).lau
        limiter := (startCab (completeScan fixed counts s)).limiter
        weigh := (startCab (completeScan fixed counts s)).weigh
        records := (startCab (completeScan fixed counts s)).records
        mgmt :=
          { s.mgmt with
            flags := (startCab (completeScan fixed counts s)).mgmt.flags
            noticePending := (startCab (completeScan fixed counts s)).mgmt.noticePending }
        cab := { s.cab with flight := (startCab (completeScan fixed counts s)).cab.flight } } := by
  have mgmt : NoticesOnly s.mgmt (startCab (completeScan fixed counts s)).mgmt :=
    (completeScan_noticesOnly fixed counts s).trans (startCab_noticesOnly _)
  have cab := startCab_cab (completeScan fixed counts s)
  rw [completeScan_cab] at cab
  rw [State.mk.injEq]
  simp only [← cab, ← show (startCab (completeScan fixed counts s)).mgmt = _ from mgmt]
  simp

theorem raiseIf_setLau (b : Bool) (f : NoticeFlag) (s : State) (r : Option LoadResult) :
    { raiseIf b f s with lau := r } = raiseIf b f { s with lau := r } := by
  cases b <;> rfl

/-- The completion, by whether the fault of some channel changed (R9, R19). -/
theorem completeScan_eq (fixed : FixedTables) (counts : Six (BitVec 12)) (s : State) :
    completeScan fixed counts s =
      weighTakes (loadResultOf (scanRecordOf fixed counts (channelsAfter fixed.cal counts s.scan.channels) s.scan.slew))
        (limiterTakes fixed.rct
          (loadResultOf (scanRecordOf fixed counts (channelsAfter fixed.cal counts s.scan.channels) s.scan.slew))
          (raiseIf (faultsChanged s.scan.channels (channelsAfter fixed.cal counts s.scan.channels)) .sensor
            { s with
              scan :=
                { s.scan with channels := channelsAfter fixed.cal counts s.scan.channels, inProgress := none }
              lau :=
                some (loadResultOf (scanRecordOf fixed counts (channelsAfter fixed.cal counts s.scan.channels)
                  s.scan.slew)) })) := by
  unfold completeScan lauTakes
  simp only
  rw [raiseIf_setLau]
  rfl

theorem exec_scanCompletion {s : State} {fixed : FixedTables} (running : s.power = .running)
    (inProgress : s.scan.inProgress = some fixed) (counts : Six (BitVec 12)) :
    exec (.scanCompletion counts) s = .next (startCab (completeScan fixed counts s)) := by
  refine (whileRunning_running _ running).trans ?_
  simp only [inProgress]

/-! ### A port that is not up -/

theorem Port.not_up_of_down {p : Port} (h : p.mode = .off ∨ p.joined = false) : ¬ p.up = true := by
  rw [Port.up_iff]
  rintro ⟨active, joined⟩
  obtain off | apart := h
  · cases active.symm.trans off
  · cases joined.symm.trans apart

theorem whileRunning_self (s : State) : whileRunning s s = .next s := by
  unfold whileRunning
  split <;> rfl

/-! ### The slew record -/

theorem slewFrameAccepted_iff (data : List Byte) :
    slewFrameAccepted data = true ↔ 7 ≤ data.length ∧ (byteAt data 6).toNat % 2 = 1 ∧ pairAt data 0 < 3600 := by
  simp only [slewFrameAccepted, BitVec.getLsbD, Nat.testBit_zero, Bool.and_eq_true, decide_eq_true_eq, and_assoc]

end Sys2Proof.Machine

open Sys2Proof Sys2Proof.Machine

/-- Settles O7. -/
theorem scanUnitTimers : Obligations.ScanUnitTimers := by
  refine ⟨fun s running => ⟨_, whileRunning_running _ running, rfl, ?_, ?_⟩, fun s d running timer => ?_⟩
  · intro idle
    simp only [idle]
  · intro fixed busy
    simp only [busy]
  · refine (whileRunning_running _ running).trans ?_
    simp only [timer]

/-- Settles O8: each channel record is what `channelAfter` makes of it. -/
theorem scanWritesChannelRecords : Obligations.ScanWritesChannelRecords := by
  refine ⟨fun s counts fixed cal running inProgress valid => ?_, fun s counts fixed running inProgress empty => ?_⟩
  · refine ⟨_, exec_scanCompletion running inProgress counts, by simp, fun i => ?_⟩
    simp only [startCab_scan, completeScan_scan, channelsAfter_get, valid, channelAfter_some]
    refine ⟨trivial, fun limits span => ?_, fun out => ?_, fun low high => ?_⟩
    · exact congrArg some (engineeringValue_eq (k := calRecord cal i) limits span _)
    · rw [(isOut_iff (calRecord cal i) _).2 out, windowCount_out]
      simp
    · have inside : isOut (calRecord cal i) (counts.get i) = false := by
        rw [← Bool.not_eq_true, isOut_iff]
        exact fun out => out.elim (fun h => absurd h (Nat.not_lt.2 low)) fun h => absurd h (Nat.not_lt.2 high)
      rw [inside, windowCount_in]
      simp
  · refine ⟨_, exec_scanCompletion running inProgress counts, by simp, by simp, fun i => ?_, ?_, ?_⟩
    · simp only [startCab_scan, completeScan_scan, channelsAfter_get, empty, channelAfter]
    · rw [startCab_lau, completeScan, lauTakes_lau, loadResultOf_of_empty (.inl (engineeringOf_eq_none.2 empty))]
      rfl
    · rw [startCab_limiter, completeScan, lauTakes_limiter,
        loadResultOf_of_empty (.inl (engineeringOf_eq_none.2 empty))]
      rfl

/-- Settles O9. -/
theorem scanHandsOverOneRecord : Obligations.ScanHandsOverOneRecord := by
  refine ⟨fun s counts fixed running inProgress => ?_, fun s counts fixed running inProgress => ?_⟩
  · refine ⟨_, scanRecordOf fixed counts (channelsAfter fixed.cal counts s.scan.channels) s.scan.slew,
      exec_scanCompletion running inProgress counts, ?_, ?_, rfl, rfl, rfl, engineeringOf_eq_none, ?_, ?_, ?_,
      completion_frame fixed counts s, ?_, ?_⟩
    · rw [startCab_lau, completeScan, lauTakes_lau]
    · rw [startCab_limiter, completeScan, lauTakes_limiter]
      congr 1
      unfold raiseIf
      split <;> rfl
    · intro e values
      rw [startCab_scan, completeScan_scan]
      exact engineeringOf_eq_some values _
    · rw [startCab_scan, completeScan_scan]
      exact channelValid_iff _
    · rw [startCab_scan, completeScan_scan]
      exact Iff.rfl
    · intro changed
      simp only [startCab_scan, completeScan_scan] at changed ⊢
      rw [completeScan_eq, (faultsChanged_iff ..).2 changed]
      exact startCab_spec _
    · intro same
      simp only [startCab_scan, completeScan_scan] at same ⊢
      have unchanged : faultsChanged s.scan.channels (channelsAfter fixed.cal counts s.scan.channels) = false := by
        rw [← Bool.not_eq_true, faultsChanged_iff]
        exact fun ⟨i, changed⟩ => changed (same i)
      rw [completeScan_eq, unchanged]
      exact startCab_spec _
  · refine ⟨_, exec_scanCompletion running inProgress counts, ?_⟩
    rw [startCab_mgmt_flags, completeScan_sensor, startCab_scan, completeScan_scan, Bool.or_eq_true, faultsChanged_iff]

/-- Settles O10. -/
theorem slewFrameAcceptedOrDiscarded : Obligations.SlewFrameAcceptedOrDiscarded := by
  refine ⟨fun s data down => ?_, fun s data running active joined => ?_⟩
  · show whileRunning _ (if s.crane.port.up then _ else s) = _
    rw [if_neg (Port.not_up_of_down down), whileRunning_self]
  · have up : s.crane.port.up = true := (Port.up_iff _).2 ⟨active, joined⟩
    refine ⟨craneReceives s, _, whileRunning_running _ running, rfl, fun discarded => ?_, fun long ok angle => ?_⟩
    · have refused : ¬ slewFrameAccepted data = true := by
        rw [slewFrameAccepted_iff, pairAt_eq, Nat.zero_add]
        omega
      simp only [up, if_true, if_neg refused]
    · have accepted : slewFrameAccepted data = true := (slewFrameAccepted_iff data).2 ⟨long, ok, angle⟩
      simp only [up, if_true, accepted, acceptSlewFrame, clamp_eq (show (-300 : Int) ≤ 300 by decide)]
      rfl
end

section
/-! Load arithmetic (R22 to R47), the Limiter's evaluation (R49 to R53), lever targets (R60 to R64) and field
validation (R153 to R158). -/

namespace Sys2Proof.Machine

/-! ### Field validation -/

theorem firstBadWord_eq_some {k : Kind} {ws : Image} {j : Nat} :
    firstBadWord k ws = some j ↔ j < k.words ∧ ¬ WordPasses k ws j ∧ ∀ i < j, WordPasses k ws i := by
  rw [firstBadWord, List.find?_range_eq_some]
  simp only [Bool.not_eq_true', ← Bool.not_eq_true, Bool.not_not, List.mem_range]
  constructor
  · rintro ⟨fails, inside, before⟩
    exact ⟨inside, fun passes => fails ((wordOk_iff k ws inside).2 passes),
      fun i hi => (wordOk_iff k ws (hi.trans inside)).1 (before i hi)⟩
  · rintro ⟨inside, fails, before⟩
    exact ⟨fun ok => fails ((wordOk_iff k ws inside).1 ok), inside,
      fun i hi => (wordOk_iff k ws (hi.trans inside)).2 (before i hi)⟩

theorem firstBadWord_eq_none {k : Kind} {ws : Image} :
    firstBadWord k ws = none ↔ ∀ j < k.words, WordPasses k ws j := by
  simp only [firstBadWord, List.find?_eq_none, List.mem_range, Bool.not_eq_true', Bool.not_eq_false]
  exact forall₂_congr fun j inside => wordOk_iff k ws inside

theorem fieldAt_replicate_zero (n i : Nat) : fieldAt (List.replicate n 0#16) i = 0 := by
  rw [fieldAt, List.getD_eq_getElem?_getD]
  exact congrArg BitVec.toNat (List.getElem?_getD_replicate_default_eq ..)

/-- A word of each kind that a zero cannot satisfy: FMT refresh, CAL full, BMT first boom length, RCT count, WPT
samples. -/
theorem zeros_firstBadWord (k : Kind) : firstBadWord k (List.replicate k.words 0) ≠ none := by
  intro passes
  have word := firstBadWord_eq_none.1 passes
  cases k
  case fmt => exact absurd ((word 0 (by decide)).1 rfl).1 (by simp [fieldAt_replicate_zero])
  case cal => exact absurd ((word 1 (by decide) 0 (by decide)).2.1 rfl).1 (by simp [fieldAt_replicate_zero])
  case bmt => exact absurd ((word 1 (by decide)).2.1 (.inl rfl)).1 (by simp [fieldAt_replicate_zero])
  case rct => exact absurd ((word 0 (by decide)).1 rfl).1 (by simp [fieldAt_replicate_zero])
  case wpt => exact absurd ((word 3 (by decide)).2.2.2.1 rfl).1 (by simp [fieldAt_replicate_zero])

/-- A BMT that passes field validation has its fields in their ranges (R156). -/
theorem bmtOk_of_imageOk {ws : Image} (h : imageOk .bmt ws = true) : BmtOk ws := by
  have passes : firstBadWord .bmt ws = none := by
    simpa using (Bool.and_eq_true_iff.1 h).2
  have word (j : Nat) (hj : j < 46) : BmtWordPasses ws j := firstBadWord_eq_none.1 passes j hj
  obtain ⟨lp, -⟩ := word 0 (by decide)
  obtain ⟨-, l1, -⟩ := word 1 (by decide)
  obtain ⟨-, l2, -⟩ := word 2 (by decide)
  obtain ⟨eMax, -⟩ := word 5 (by decide)
  refine ⟨lp (.inl rfl), (l1 (.inl rfl)).2, (l2 (.inr rfl)).2, Nat.le_of_lt_succ (fieldAt_lt ws 3),
    Nat.le_of_lt_succ (fieldAt_lt ws 4), eMax (.inr (.inl rfl)), fun j low high => ?_⟩
  obtain ⟨-, -, -, -, -, -, lever⟩ := word j high
  have := lever (j - 13) (by omega) (by omega)
  rwa [show 13 + (j - 13) = j by omega] at this

/-! ### The stages of a load -/

/-- A product of a pressure and an area is within the width of 2.14. -/
theorem pressure_mul_range {p : Int} {a : Nat} (low : 0 ≤ p) (high : p ≤ 4000) (area : a ≤ 65535) :
    0 ≤ p * a ∧ p * a ≤ 262140000 := by
  refine ⟨Int.mul_nonneg low (Int.natCast_nonneg a), ?_⟩
  calc p * a ≤ 4000 * 65535 := Int.mul_le_mul high (by omega) (Int.natCast_nonneg a) (by decide)
    _ = 262140000 := by decide

/-- The net lift force of clamped pressures (R23). -/
theorem netForce_range {p r : Int} {a b : Nat} (hp : 0 ≤ p ∧ p ≤ 4000) (hr : 0 ≤ r ∧ r ≤ 4000) (ha : a ≤ 65535)
    (hb : b ≤ 65535) : -262140 ≤ netForce p r a b ∧ netForce p r a b ≤ 262140 := by
  have piston := pressure_mul_range hp.1 hp.2 ha
  have rod := pressure_mul_range hr.1 hr.2 hb
  have magnitude : (netForce p r a b).natAbs = (p * a - r * b).natAbs / 1000 := Int.natAbs_tdiv ..
  omega

/-- The lever arm of a curve whose points lie in 50..2000 (R24). -/
theorem leverArm_range {bmt : Image} (ok : BmtOk bmt) (alpha : Int) :
    50 ≤ leverArm bmt alpha ∧ leverArm bmt alpha ≤ 2000 := by
  have point (i : Nat) (hi : i ≤ 32) : 50 ≤ bmtLever bmt i ∧ bmtLever bmt i ≤ 2000 := by
    have := ok.lever (13 + i) (by omega) (by omega)
    unfold bmtLever
    omega
  have offset : leverOffset alpha ≤ 1280 := by
    have := clamp_range (show (-400 : Int) ≤ 880 by decide) alpha
    unfold leverOffset
    omega
  unfold leverArm
  simp only
  split
  · exact point 32 le_rfl
  · have a := point (leverOffset alpha / 40) (by omega)
    have b := point (leverOffset alpha / 40 + 1) (by omega)
    have between := tdiv_interpolation_between (bmtLever bmt (leverOffset alpha / 40))
      (bmtLever bmt (leverOffset alpha / 40 + 1)) (f := (leverOffset alpha % 40 : Nat)) (n := 40) (by omega) (by omega)
      (by decide)
    omega

theorem cosineAt_neg (a : Int) : cosineAt (-a) = cosineAt a := by
  rw [cosineAt, cosineAt, Int.natAbs_neg]

theorem cosineAt_of_ge {a : Int} (h : 900 ≤ a) : cosineAt a = 0 := by
  rw [cosineAt, Nat.min_eq_right (by omega)]
  decide +kernel

/-- The worked cases of R26. -/
theorem cosineAt_worked :
    [0, 100, 215, 300, 450, 600, 860, 880, 900].map cosineAt =
      [16384, 16135, 15244, 14189, 11585, 8192, 1143, 572, 0] := by
  decide +kernel

theorem liftMomentOf_eq (force lever : Int) :
    liftMomentOf force lever = max (-2000000000) (min 2000000000 (force * lever)) :=
  clamp_eq (by decide) _

/-- A moment of a force and an arm in their ranges is not limited (R25). -/
theorem moment_range {force lever : Int} (hf : -262140 ≤ force ∧ force ≤ 262140)
    (hl : 50 ≤ lever ∧ lever ≤ 2000) :
    -2000000000 ≤ force * lever ∧ force * lever ≤ 2000000000 := by
  constructor <;> nlinarith

/-- The extension as used lies within the member (R22). -/
theorem extension_le (e : Nat) (x : Int) : (clamp 0 e x).toNat ≤ e := by
  have := clamp_range (show (0 : Int) ≤ e by omega) x
  omega

theorem tipArmOf_le {b : BoomMembers} {e : Nat} (h1 : b.l1 ≤ 20000) (h2 : b.l2 ≤ 20000) (he : e ≤ 20000)
    (alpha beta : Int) :
    tipArmOf b alpha beta e ≤ 60000 := by
  have := projection_le b.l1 alpha
  have := projection_le (b.l2 + e) beta
  unfold tipArmOf
  omega

theorem weightOf_eq_none {m : Int} {dead tip : Nat} : weightOf m dead tip = none ↔ tip < 500 := by
  unfold weightOf
  split <;> simp_all

theorem weightOf_range {m w : Int} {dead tip : Nat} (h : weightOf m dead tip = some w) : -32768 ≤ w ∧ w ≤ 32767 := by
  unfold weightOf at h
  split at h
  · cases h
  · cases h
    exact clamp_range (by decide) _

/-! ### Sectors and ratings -/

theorem rctTiltAxis_pitch {ws : Image} {s : Nat} (h : fieldAt ws (7 + 4 * s) = 0) : rctTiltAxis ws s = .pitch :=
  if_pos h

theorem rctTiltAxis_roll {ws : Image} {s : Nat} (h : fieldAt ws (7 + 4 * s) = 1) : rctTiltAxis ws s = .roll := by
  unfold fieldAt at h
  simp only [rctTiltAxis, h]
  rfl

theorem rctTiltSign_plus {ws : Image} {s : Nat} (h : fieldAt ws (8 + 4 * s) = 0) : rctTiltSign ws s = .plus :=
  if_pos h

theorem rctTiltSign_minus {ws : Image} {s : Nat} (h : fieldAt ws (8 + 4 * s) = 1) : rctTiltSign ws s = .minus := by
  unfold fieldAt at h
  simp only [rctTiltSign, h]
  rfl

/-- The tilt of a sector whose axis and sign are known (R42). -/
theorem tiltToward_cast (x : Int) : (((clamp 0 300 x).toNat : Nat) : Int) = max 0 (min 300 x) := by
  have := clamp_range (show (0 : Int) ≤ 300 by decide) x
  rw [Int.toNat_of_nonneg this.1, clamp_eq (by decide)]

/-- The sector of a chart whose first start is 0 (R34). -/
theorem sectorOf_spec {rct : Image} (slew : Nat) (low : 1 ≤ fieldAt rct 0) (high : fieldAt rct 0 ≤ 8)
    (first : fieldAt rct 6 = 0) :
    sectorOf rct slew < fieldAt rct 0 ∧ fieldAt rct (6 + 4 * sectorOf rct slew) ≤ slew ∧
      ∀ s, sectorOf rct slew < s → s < fieldAt rct 0 → slew < fieldAt rct (6 + 4 * s) := by
  obtain ⟨s, last, inside, starts, beyond⟩ := filter_range_getLast (n := fieldAt rct 0)
    (p := fun s => rctStart rct s ≤ slew) ⟨0, low, by simp [rctStart, first]⟩
  have sector : sectorOf rct slew = s := by
    unfold sectorOf
    rw [rctSectorCount_of low high, last]
  rw [sector]
  exact ⟨inside, of_decide_eq_true starts, fun j after within =>
    Nat.not_le.1 (of_decide_eq_false (beyond j after within))⟩

/-! ### Lever targets -/

/-- The chosen axis is one of the candidates. -/
theorem onlyAxis_mem {ws : Image} {salt : Nat} {cs : List (Fin 6)} {i : Fin 6} (h : onlyAxis ws salt cs = some i) :
    i ∈ cs := by
  unfold onlyAxis at h
  split at h
  · cases h
  · cases h
    exact List.mem_singleton_self _
  · rename_i a rest _
    cases h
    rw [List.getD_eq_getElem _ _ (by exact Nat.mod_lt _ (Nat.succ_pos _))]
    exact List.getElem_mem _

/-- The axis of a section names it. -/
theorem drives_of_axisOfSection {ws : Image} {k i : Fin 6} (h : axisOfSection ws k = some i) :
    (fmtAxis ws i).drives = some k := by
  simpa using (List.mem_filter.1 (onlyAxis_mem h)).2

/-- An axis value as the sense of its axis turns it (R62). -/
def turnedBy (sense : AxisSense) (v : Int) : Int :=
  match sense with
  | .normal => v
  | .inverted => -v

theorem turnedBy_natAbs (sense : AxisSense) (v : Int) : (turnedBy sense v).natAbs = v.natAbs := by
  cases sense <;> simp [turnedBy]

theorem leverTarget_eq (a : AxisRecord) (v : Int) : leverTarget a v =
    if v.natAbs ≤ a.deadband then 0
    else (turnedBy a.sense v).sign * ((v.natAbs - a.deadband) * a.gain / (1000 - a.deadband) : Nat) := by
  rw [← turnedBy_natAbs a.sense v]
  rfl

theorem leverTarget_within {a : AxisRecord} {v : Int} (h : v.natAbs ≤ a.deadband) : leverTarget a v = 0 := by
  rw [leverTarget_eq, if_pos h]

theorem leverTarget_outside {a : AxisRecord} {v : Int} (h : a.deadband < v.natAbs) : leverTarget a v =
    (turnedBy a.sense v).sign * ((v.natAbs - a.deadband) * a.gain / (1000 - a.deadband) : Nat) := by
  rw [leverTarget_eq, if_neg (Nat.not_le.2 h)]

theorem leverTarget_natAbs {a : AxisRecord} {v : Int} (h : a.deadband < v.natAbs) :
    (leverTarget a v).natAbs = (v.natAbs - a.deadband) * a.gain / (1000 - a.deadband) := by
  have nonzero : turnedBy a.sense v ≠ 0 := by
    have := turnedBy_natAbs a.sense v
    omega
  rw [leverTarget_outside h, Int.natAbs_mul, Int.natAbs_natCast, Int.natAbs_sign_of_ne_zero nonzero, Nat.one_mul]

theorem turnedBy_pos_of_leverTarget_pos {a : AxisRecord} {v : Int} (h : 0 < leverTarget a v) : 0 < turnedBy a.sense v := by
  have outside : a.deadband < v.natAbs := by
    by_contra within
    rw [leverTarget_within (Nat.not_lt.1 within)] at h
    exact lt_irrefl 0 h
  rw [leverTarget_outside outside] at h
  by_contra nonpos
  exact absurd (mul_nonpos_of_nonpos_of_nonneg (Int.sign_nonpos_iff.2 (not_lt.1 nonpos)) (Int.natCast_nonneg _))
    (not_le.2 h)

theorem turnedBy_neg_of_leverTarget_neg {a : AxisRecord} {v : Int} (h : leverTarget a v < 0) : turnedBy a.sense v < 0 := by
  have outside : a.deadband < v.natAbs := by
    by_contra within
    rw [leverTarget_within (Nat.not_lt.1 within)] at h
    exact lt_irrefl 0 h
  rw [leverTarget_outside outside] at h
  by_contra nonneg
  exact absurd (mul_nonneg (Int.sign_nonneg_iff.2 (not_lt.1 nonneg)) (Int.natCast_nonneg _)) (not_le.2 h)

/-- A lever target lies within the gain (R62). -/
theorem leverTarget_le_gain {a : AxisRecord} {v : Int} (deadband : a.deadband < 1000) (range : v.natAbs ≤ 1000) :
    (leverTarget a v).natAbs ≤ a.gain := by
  by_cases within : v.natAbs ≤ a.deadband
  · simp [leverTarget_within within]
  · rw [leverTarget_natAbs (Nat.not_le.1 within)]
    exact Nat.div_le_of_le_mul (Nat.mul_le_mul_right _ (by omega))

/-- It reaches the gain at full lever travel (R62). -/
theorem leverTarget_full {a : AxisRecord} {v : Int} (deadband : a.deadband < 1000) (full : v.natAbs = 1000) :
    (leverTarget a v).natAbs = a.gain := by
  rw [leverTarget_natAbs (by omega), full, Nat.mul_div_cancel_left _ (by omega)]

theorem leverTargets_unmapped {ws : Image} {k : Fin 6} (h : ∀ i, (fmtAxis ws i).drives ≠ some k) (v : Six Int) :
    (leverTargets (some ws) v).get k = 0 := by
  simp only [leverTargets, Six.get_build, sectionTarget, (axisOfSection_eq_none ws k).2 h]

theorem leverTargets_mapped {ws : Image} {k i : Fin 6} (h : (fmtAxis ws i).drives = some k)
    (only : ∀ j, (fmtAxis ws j).drives = some k → j = i) (v : Six Int) :
    (leverTargets (some ws) v).get k = leverTarget (fmtAxis ws i) (v.get i) := by
  simp only [leverTargets, Six.get_build, sectionTarget, axisOfSection_of_unique h only]

theorem isNeutral_iff (ws : Image) (v : Six Int) :
    isNeutral (some ws) v = true ↔
      ∀ i, (fmtAxis ws i).drives ≠ none → (v.get i).natAbs ≤ (fmtAxis ws i).deadband := by
  simp only [isNeutral, List.all_eq_true, mem_allAxes, true_imp_iff, Bool.or_eq_true, Option.isNone_iff_eq_none,
    decide_eq_true_eq, or_iff_not_imp_left, ne_eq]

/-- A neutral frame asks for no motion (R63). -/
theorem leverTargets_of_neutral {ws : Image} {v : Six Int} (h : isNeutral (some ws) v = true) (k : Fin 6) :
    (leverTargets (some ws) v).get k = 0 := by
  simp only [leverTargets, Six.get_build, sectionTarget]
  split
  · rfl
  · rename_i i axis
    exact leverTarget_within ((isNeutral_iff ws v).1 h i (by simp [drives_of_axisOfSection axis]))

end Sys2Proof.Machine

open Sys2Proof Sys2Proof.Machine

/-- Settles O12. -/
theorem loadStagesLieInTheirRanges : Obligations.LoadStagesLieInTheirRanges := by
  refine ⟨fun v bmt rct slew => ?_, fun a => ⟨cosineAt_neg a, cosineAt_of_ge⟩, cosineAt_worked,
    fun v bmt rct slew valid => ?_⟩
  · refine ⟨clamp_eq (by decide) _, clamp_eq (by decide) _, ?_, rfl, rfl, rfl, rfl, liftMomentOf_eq _ _, rfl, rfl, rfl,
      weightOf_eq_none.2, fun long => ?_, rfl, rfl, ?_, ?_, rfl⟩
    · show (((clamp 0 (fieldAt bmt 5) v.ext).toNat : Nat) : Int) = _
      have range := clamp_range (show (0 : Int) ≤ fieldAt bmt 5 by omega) v.ext
      rw [Int.toNat_of_nonneg range.1, clamp_eq (by omega)]
    · exact (if_neg (Nat.not_lt.2 long)).trans (congrArg some (clamp_eq (by decide) _))
    · rintro rfl
      rfl
    · rintro ws rfl
      rfl
  · have ok := bmtOk_of_imageOk valid
    have piston := clamp_range (show (0 : Int) ≤ 4000 by decide) v.pPiston
    have rod := clamp_range (show (0 : Int) ≤ 4000 by decide) v.pRod
    have ext := extension_le (fieldAt bmt 5) v.ext
    have force := netForce_range piston rod ok.aPist ok.aRod
    have lever := leverArm_range ok v.angBoom
    have moment := moment_range force lever
    have lift : liftMomentOf _ _ = _ := (liftMomentOf_eq _ _).trans
      ((congrArg _ (min_eq_right moment.2)).trans (max_eq_right moment.1))
    refine ⟨piston, rod, ext, force, lever, lift, ?_, (projection_le _ _).trans ok.l1,
      tipArmOf_le ok.l1 ok.l2 (ext.trans ok.eMax) _ _, Nat.min_le_left _ _, weightOf_eq_none,
      fun w weight => weightOf_range weight, rfl, rfl, fun q rating => ?_⟩
    · exact ⟨moment.1.trans lift.ge, lift.le.trans moment.2⟩
    · obtain ⟨ws, -, rfl⟩ := Option.map_eq_some_iff.1 rating
      exact ratingOf_utilisation_le ..

/-- Settles O14. -/
theorem sectorAndStaleRating : Obligations.SectorAndStaleRating := by
  refine ⟨fun rct slew low high first _ => sectorOf_spec slew low high first,
    fun rct slew band w stale low high => ?_, fun rct slew band w fresh => ?_⟩
  · have count : max 1 (rctSectorCount rct) = fieldAt rct 0 := by
      rw [rctSectorCount_of low high]
      omega
    have rating : ratingOf rct slew band w =
        { sector := 255, tilt := rctStaleTilt rct, effective := leastRating rct band (rctStaleTilt rct),
          utilisation := utilisationOf w (leastRating rct band (rctStaleTilt rct)) } := if_pos stale
    rw [rating]
    refine ⟨rfl, rfl, rfl, fun s within => leastRating_le _ _ _ s (count.symm ▸ within), ?_⟩
    obtain ⟨s, within, least⟩ := leastRating_mem rct band (rctStaleTilt rct)
    exact ⟨s, count ▸ within, least⟩
  · have rating : ratingOf rct slew band w =
        { sector := sectorOf rct slew.slew, tilt := tiltToward rct (sectorOf rct slew.slew) slew
          effective :=
            effectiveRating rct (sectorOf rct slew.slew) band (tiltToward rct (sectorOf rct slew.slew) slew)
          utilisation := utilisationOf w
            (effectiveRating rct (sectorOf rct slew.slew) band (tiltToward rct (sectorOf rct slew.slew) slew)) } :=
      if_neg (by simp [fresh])
    rw [rating]
    refine ⟨rfl, rfl, fun axis sign => ?_, fun axis sign => ?_, fun axis sign => ?_, fun axis sign => ?_,
      fun beyond => ?_, fun _ => rfl⟩
    · simp only [tiltToward, rctTiltAxis_pitch axis, rctTiltSign_plus sign, tiltToward_cast]
    · simp only [tiltToward, rctTiltAxis_pitch axis, rctTiltSign_minus sign, tiltToward_cast]
    · simp only [tiltToward, rctTiltAxis_roll axis, rctTiltSign_plus sign, tiltToward_cast]
    · simp only [tiltToward, rctTiltAxis_roll axis, rctTiltSign_minus sign, tiltToward_cast]
    · have none : derateFactor (rctDerate rct (sectorOf rct slew.slew))
          (tiltToward rct (sectorOf rct slew.slew) slew) = 0 := Nat.sub_eq_zero_of_le beyond
      simp only [effectiveRating, none, Nat.mul_zero, Nat.zero_div]

/-- Settles O16. -/
theorem limiterEvaluation : Obligations.LimiterEvaluation := by
  intro l rct r
  refine ⟨?_, ?_, ?_, ?_⟩
  · rintro stale rfl
    rfl
  · rintro stale rfl
    rfl
  · rintro v rfl rating
    simp only [Limiter.evaluate, rating]
  · rintro v q ws rfl rating rfl
    have evaluated : l.evaluate (some ws) (.valid v) =
        { state := nextLimiterState ws q.utilisation l.state, u := q.utilisation } := by
      simp only [Limiter.evaluate, rating]
    rw [evaluated]
    refine ⟨rfl, fun other => ?_, fun limit => ?_⟩
    · have next : nextLimiterState ws q.utilisation l.state = limiterRow ws (rctLimitAt ws) q.utilisation := by
        cases state : l.state
        case limit => exact absurd state other
        case clear | warn | fault => rfl
      simp only [next]
      obtain ⟨toLimit, either, toWarn, toClear⟩ := limiterRow_cases ws (rctLimitAt ws) q.utilisation
      exact ⟨toLimit, either, fun h h' => toWarn h' h, fun h h' => toClear h' h⟩
    · simp only [limit]
      exact limiterRow_cases ws (rctReleaseAt ws) q.utilisation

/-- Settles O18. -/
theorem leverTargetsAndNeutrality : Obligations.LeverTargetsAndNeutrality := by
  refine ⟨fun b => ?_, fun data i => Six.get_build _ i, fmtAxis_fields, sectionRouting,
    fun ws v k => ⟨fun none => leverTargets_unmapped none v, fun i drives only => leverTargets_mapped drives only v⟩,
    fun a v => ⟨leverTarget_within, leverTarget_natAbs, fun pos => ?_, fun neg => ?_, leverTarget_le_gain,
      leverTarget_full⟩,
    fun v => ⟨rfl, Six.get_same 0⟩, fun ws v => ⟨isNeutral_iff ws v, leverTargets_of_neutral⟩⟩
  · rw [axisValue, clamp_eq (by decide)]
  · have := turnedBy_pos_of_leverTarget_pos pos
    cases sense : a.sense <;> simp only [sense, turnedBy] at this <;> simp <;> omega
  · have := turnedBy_neg_of_leverTarget_neg neg
    cases sense : a.sense <;> simp only [sense, turnedBy] at this <;> simp <;> omega

/-- Settles O37. -/
theorem firstFailingWordIsNamed : Obligations.FirstFailingWordIsNamed :=
  ⟨fun _ _ => ⟨fun _ => firstBadWord_eq_some, firstBadWord_eq_none⟩, zeros_firstBadWord⟩
end

section
/-! Demand frames, lines, DEPLOY and STOW (R59 to R81), section steps and the frames of both ports (R84 to R102, R179). -/

namespace Sys2Proof.Machine

/-! ### Demand frames -/

theorem isOwner_iff (owner : Option Ownership) (src : DemandSource) :
    isOwner owner src = true ↔ ∃ o, owner = some o ∧ o.source = src := by
  cases owner <;> simp [isOwner]

/-- A demand frame at a Cab Port that is up and long enough (R59). -/
theorem exec_demandFrame {s : State} {data : List Byte} (running : s.power = .running)
    (active : s.cab.port.mode = .active) (joined : s.cab.port.joined = true) (long : 7 ≤ data.length)
    (src : DemandSource) :
    exec (.demandFrame src data) s = .next (startCab (takeDemandFrame src data (cabReceives s))) := by
  refine (whileRunning_running _ running).trans ?_
  rw [if_pos ((Port.up_iff _).2 ⟨active, joined⟩)]
  simp only
  rw [if_neg (Nat.not_lt.2 long)]

/-- What an owner frame leaves before a rising edge of WEIGH is looked at (R64, R75, R81). -/
def ownerFrameTaken (src : DemandSource) (data : List Byte) (s : State) : State :=
  { s with
    demand :=
      { s.demand with
        owner := some { source := src, neutral := isNeutral s.tables.fmt.active (axisValues data) }
        crane := if becomesActive data s then .active else s.demand.crane
        targets := leverTargets s.tables.fmt.active (axisValues data)
        timer := some 150
        weighCab := if src = .cab then weighBit data else s.demand.weighCab
        weighAux := if src = .aux then weighBit data else s.demand.weighAux } }

theorem ownerFrame_eq (src : DemandSource) (data : List Byte) (s : State) :
    ownerFrame src data s =
      if !s.demand.prevWeigh src && weighBit data then weighEdge (ownerFrameTaken src data s)
      else ownerFrameTaken src data s := by
  unfold ownerFrame ownerFrameTaken
  by_cases becomes : becomesActive data s = true
  · cases src <;> simp only [becomes, if_true] <;> rfl
  · cases src <;> simp only [becomes] <;> rfl

/-- A rising edge of WEIGH that starts a cycle (R109). -/
theorem weighEdge_starts {s : State} {ws : Image} (wpt : s.tables.wpt.active = some ws)
    (button : (wptParams ws).trigger = .button) (idle : s.weigh.phase = .idle) (active : s.demand.crane = .active) :
    weighEdge s =
      { s with
        weigh :=
          startCycle .weigh .button (wptParams ws) s.records.assortment s.scan.inProgress.isSome s.weigh } := by
  unfold weighEdge
  simp only [wpt]
  exact if_pos ⟨button, idle, active⟩

/-- Any other rising edge of WEIGH (R109). -/
theorem weighEdge_without_start {s : State}
    (h : s.tables.wpt.active = none ∨ (∃ ws, s.tables.wpt.active = some ws ∧ (wptParams ws).trigger ≠ .button) ∨
      s.weigh.phase ≠ .idle ∨ s.demand.crane ≠ .active) : weighEdge s = s := by
  unfold weighEdge
  split
  · rfl
  · rename_i ws wpt
    refine if_neg fun ⟨button, idle, active⟩ => ?_
    obtain empty | ⟨other, valid, trigger⟩ | busy | still := h
    · cases wpt.symm.trans empty
    · cases wpt.symm.trans valid
      exact trigger button
    · exact busy idle
    · exact still active

theorem grantTake_eq (src : DemandSource) (data : List Byte) (s : State) :
    grantTake src data s =
      { raise .owner (activeSentToReady s) with
        demand :=
          { (activeSentToReady s).demand with
            owner := some { source := src, neutral := isNeutral s.tables.fmt.active (axisValues data) }
            targets := leverTargets s.tables.fmt.active (axisValues data)
            timer := some 150
            weighCab := if src = .cab then weighBit data else s.demand.weighCab
            weighAux := if src = .aux then weighBit data else s.demand.weighAux } } := by
  have tables : (activeToReady s).tables = s.tables := by simp
  have cab : (activeToReady s).demand.weighCab = s.demand.weighCab := by simp
  have aux : (activeToReady s).demand.weighAux = s.demand.weighAux := by simp
  rw [← tables, ← cab, ← aux, ← activeToReady_eq]
  cases src <;> rfl

/-! ### Lines -/

theorem Level.other_ne (l : Level) : l.other ≠ l := by
  cases l <;> decide

theorem filterAfter_of_ne {line level : Level} (h : line ≠ level) : filterAfter line level = some 20 :=
  if_neg h

theorem filterAfter_of_eq {line level : Level} (h : line = level) : filterAfter line level = none :=
  if_pos h

/-! ### Sections -/

/-- The presence zeroing of a section that is mapped and moving (R94). -/
theorem zeroSection_moving {a : AxisRecord} {r : Section} (h : r.output ≠ 0) :
    zeroSection (some a) r =
      { r with output := 0, dwell := a.dwell, pendingDir := if a.dwell = 0 then .none else r.pendingDir } :=
  if_neg h

theorem zeroSection_kept {axis : Option AxisRecord} {r : Section} (h : axis = none ∨ r.output = 0) :
    zeroSection axis r = r := by
  obtain rfl | still := h
  · rfl
  · cases axis
    case none => rfl
    case some => exact if_pos still

theorem outputs_eq_iff (x y : Six Section) : outputs x = outputs y ↔ ∀ k, (x.get k).output = (y.get k).output := by
  constructor
  · intro same k
    simpa [outputs] using congrArg (Six.get · k) same
  · intro same
    exact Six.eq_of_get fun k => by simpa [outputs] using same k

/-- The state at PRESENCE opens once the crane has moved (R72, R76). -/
def presenceOpened (s : State) : State :=
  let r := { s with demand := { s.demand with presence := .opened, presenceFilter := none } }
  if s.demand.crane = .ready ∨ s.demand.crane = .active then craneMoved .held r else r

theorem presenceOpened_shaper (s : State) : (presenceOpened s).shaper = s.shaper := by
  unfold presenceOpened
  simp only [← moveCrane_eq]
  split <;> simp

theorem presenceOpened_tables (s : State) : (presenceOpened s).tables = s.tables := by
  unfold presenceOpened
  simp only [← moveCrane_eq]
  split <;> simp

/-- PRESENCE opens where its event can happen (R72, R94). -/
theorem exec_presenceOpens {s : State} (running : s.power = .running) (closed : s.demand.presence = .closed)
    (line : s.pins.presenceLine = .opened) :
    exec .presenceOpens s = .next (startCab (presenceZeroing (presenceOpened s))) := by
  refine (whileRunning_running _ running).trans ?_
  rw [if_pos ⟨closed, line⟩]
  simp only [moveCrane_eq]
  rfl

/-! ### The valve frame -/

theorem startValve_idle {u : State} (h : u.valve.pending = false) : startValve u = u := by
  simp [startValve, h]

/-- A pending valve frame starts on a Crane Port that is up and free (R100). -/
theorem startValve_starts {u : State} (pending : u.valve.pending = true) (free : u.crane.flight = none)
    (up : u.crane.port.up = true) :
    startValve u =
      { u with
        crane := { u.crane with flight := some { id := 0x2C4, content := valveContent u } }
        valve := { u.valve with pending := false } } := by
  simp only [startValve, pending, free, up]
  rfl

/-! ### Frame contents -/

theorem valveContent_section (s : State) (k : Fin 6) :
    byteAt (valveContent s) k.val = valveByte (s.shaper.sections.get k).output := by
  fin_cases k <;> rfl

theorem CraneState.code_le (c : CraneState) : c.code ≤ 3 := by
  cases c <;> decide

theorem LimiterState.code_le (l : LimiterState) : l.code ≤ 3 := by
  cases l
  case clear | warn | limit => decide
  case fault => exact le_rfl

theorem byteOf_toNat_of_lt {n : Nat} (h : n < 256) : (byteOf n).toNat = n := by
  rw [byteOf, BitVec.toNat_ofNat]
  omega

/-- A pair of bytes reads back as the number written, when it fits. -/
theorem bytes2_read {n : Nat} (h : n < 65536) :
    (byteOf n).toNat + 256 * (byteOf (n / 256)).toNat = n := by
  simp only [byteOf, BitVec.toNat_ofNat]
  omega

end Sys2Proof.Machine

open Sys2Proof Sys2Proof.Machine

/-- Settles O19. -/
theorem ownerFrameIsTakenWhole : Obligations.OwnerFrameIsTakenWhole := by
  intro s src data o running active joined long owner source
  have owns : isOwner (cabReceives s).demand.owner src = true := (isOwner_iff ..).2 ⟨o, owner, source⟩
  have taken : takeDemandFrame src data (cabReceives s) = ownerFrame src data (cabReceives s) := if_pos owns
  have runs := exec_demandFrame running active joined long src
  rw [taken] at runs
  refine ⟨ownerFrameTaken src data (cabReceives s), ownerFrame src data (cabReceives s), _, runs, rfl,
    fun becomes => if_pos ((becomesActive_iff data (cabReceives s)).2 becomes),
    fun stays => if_neg fun becomes => stays ((becomesActive_iff data (cabReceives s)).1 becomes), ?_, ?_,
    startCab_spec _⟩
  · intro ws released pressed wpt button idle crane
    have rising : (!(cabReceives s).demand.prevWeigh src && weighBit data) = true := by
      rw [Bool.and_eq_true]
      exact ⟨by simpa using released, pressed⟩
    rw [ownerFrame_eq, if_pos rising]
    exact weighEdge_starts wpt button idle crane
  · intro without
    rw [ownerFrame_eq]
    split
    · rename_i rising
      rw [Bool.and_eq_true] at rising
      obtain held | released | rest := without
      · cases held.symm.trans (by simpa using rising.1)
      · cases released.symm.trans rising.2
      · exact weighEdge_without_start rest
    · rfl

/-- Settles O20. -/
theorem grantedTakeGoesThroughReady : Obligations.GrantedTakeGoesThroughReady := by
  intro s src data running active joined long take owner
  have other : ¬ isOwner (cabReceives s).demand.owner src = true := by
    rw [isOwner_iff]
    rintro ⟨o, owns, source⟩
    obtain none | ⟨o', owns', foreign, -⟩ := owner
    · cases none.symm.trans owns
    · cases owns'.symm.trans owns
      exact foreign source
  have granted : takeGranted (cabReceives s).demand.owner = true := by
    obtain none | ⟨o, owns, -, neutral⟩ := owner
    · exact congrArg takeGranted none
    · exact (congrArg takeGranted owns).trans neutral
  have taken : takeDemandFrame src data (cabReceives s) = grantTake src data (cabReceives s) :=
    (if_neg other).trans (if_pos ⟨take, granted⟩)
  have runs := exec_demandFrame running active joined long src
  rw [taken, grantTake_eq] at runs
  exact ⟨_, _, _, runs, rfl, rfl, startCab_spec _⟩

/-- Settles O21. -/
theorem otherDemandFramesAreDropped : Obligations.OtherDemandFramesAreDropped := by
  refine ⟨fun s src data down => ?_, fun s src data running active joined => ?_⟩
  · show whileRunning _ (if s.cab.port.up then _ else s) = _
    rw [if_neg (Port.not_up_of_down down), whileRunning_self]
  · have up : s.cab.port.up = true := (Port.up_iff _).2 ⟨active, joined⟩
    refine ⟨cabReceives s, _, whileRunning_running _ running, rfl, fun short => ?_, fun long foreign refused => ?_⟩
    · rw [if_pos up]
      exact if_pos short
    · have other : ¬ isOwner (cabReceives s).demand.owner src = true := by
        rw [isOwner_iff]
        rintro ⟨o, owns, source⟩
        exact foreign o owns source
      have notGranted : ¬ (takeBit data = true ∧ takeGranted (cabReceives s).demand.owner = true) := by
        rintro ⟨take, granted⟩
        obtain clear | ⟨o, owns, held⟩ := refused
        · cases clear.symm.trans take
        · cases (congrArg takeGranted owns).symm.trans granted |>.symm.trans held
      have dropped : takeDemandFrame src data (cabReceives s) = cabReceives s := (if_neg other).trans (if_neg notGranted)
      simp only [up, if_true, if_neg (Nat.not_lt.2 long), dropped]
      exact startCab_spec _

/-- Settles O22. -/
theorem demandTimerEndsOwnership : Obligations.DemandTimerEndsOwnership := by
  intro s d running timer
  refine ⟨_, whileRunning_running _ running, ?_⟩
  simp only [timer, activeToReady_eq]
  exact startCab_spec _

/-- Settles O23. -/
theorem linesAndFilteredLevels : Obligations.LinesAndFilteredLevels := by
  refine ⟨fun s => ⟨_, _, rfl, rfl, rfl, Level.other_ne _, filterAfter_of_ne, filterAfter_of_eq, rfl,
    Level.other_ne _, filterAfter_of_ne, filterAfter_of_eq⟩,
    fun s running => ⟨fun opened line => ?_, fun apart => ?_⟩⟩
  · refine ⟨_, whileRunning_running _ running, ?_⟩
    rw [if_pos ⟨opened, line⟩]
    exact ⟨rfl, fun held => if_pos held, fun other => if_neg other⟩
  · refine (whileRunning_running _ running).trans ?_
    rw [if_neg apart]

/-- Settles O24. -/
theorem presenceOpensHoldsAndZeroes : Obligations.PresenceOpensHoldsAndZeroes := by
  refine ⟨sectionRouting, fun s running closed line => ?_⟩
  refine ⟨presenceOpened s, { presenceOpened s with
      shaper :=
        { (presenceOpened s).shaper with
          sections := Six.build fun k =>
            zeroSection (sectionAxis (presenceOpened s).tables.fmt.active k) ((presenceOpened s).shaper.sections.get k) } },
    _, exec_presenceOpens running closed line, rfl, by rw [presenceOpened_shaper], fun k => ?_, ?_⟩
  · simp only [Six.get_build, presenceOpened_shaper, presenceOpened_tables]
    refine ⟨zeroSection_kept, fun a mapped moving => ?_⟩
    rw [mapped, zeroSection_moving moving]
    exact ⟨rfl, rfl, rfl, fun none => if_pos none, fun some => if_neg some⟩
  · rw [presenceZeroing, requestValve_eq]
    exact startCab_spec _

/-- Settles O25. -/
theorem deployAndStow : Obligations.DeployAndStow := by
  refine fun s frame rest => ⟨fun serving => ⟨_, whileRunning_running _ serving.running, ?_, ?_, ?_⟩,
    fun serving => ⟨_, whileRunning_running _ serving.running, ?_⟩⟩
  · intro stowed closed
    exact serve_starts serving (w := { s with demand := { s.demand with crane := .ready } }) (st := .ok) rfl id
      (by simp [decideDeploy, stowed, closed, moveCrane]; rfl)
  · intro stowed opened
    exact serve_starts serving (w := { s with demand := { s.demand with crane := .held } }) (st := .ok) rfl id
      (by simp [decideDeploy, stowed, opened, moveCrane]; rfl)
  · intro deployed
    exact serve_starts serving (w := s) (st := .state) rfl id (if_neg deployed)
  · refine serve_answers serving (w := craneMoved .stowed s) (st := .ok) (craneMoved_cab _ _) ?_
    rw [decideStow, moveCrane_eq, craneMoved_requests]
    rfl

/-- Settles O26. -/
theorem stepMovesSectionsAndRequests : Obligations.StepMovesSectionsAndRequests := by
  refine ⟨sectionRouting, fun s running => ?_⟩
  have section_spec (k : Fin 6) : SectionSteps (sectionAxis s.tables.fmt.active k) s.demand.crane s.limiter.state
      (warnSpeedOf s.tables.rct.active) (s.demand.targets.get k) (s.shaper.sections.get k)
      ((sectionsAfterStep s).get k) := by
    rw [sectionsAfterStep, Six.get_build]
    exact stepSection_spec ..
  refine ⟨{ s with shaper := { stepTimer := some 10, sections := sectionsAfterStep s } }, _,
    whileRunning_running _ running, rfl, fun k warn speed valid => ?_, fun _ => ⟨_, section_spec⟩, fun same => ?_,
    fun ⟨k, moved⟩ => ?_⟩
  · obtain ⟨ws, chart⟩ := Option.ne_none_iff_exists'.1 valid
    have := section_spec k
    rwa [show warnSpeedOf s.tables.rct.active = warn by rw [chart, speed ws chart]; rfl] at this
  · exact if_pos ((outputs_eq_iff ..).2 same)
  · rw [← requestValve_eq]
    exact if_neg fun same => moved ((outputs_eq_iff ..).1 same k)

/-- Settles O27. -/
theorem valveEndsAndRefreshes : Obligations.ValveEndsAndRefreshes := by
  refine ⟨fun s frame running active joined flight => ?_, fun s d running timer => ?_⟩
  · have up : s.crane.port.up = true := (Port.up_iff _).2 ⟨active, joined⟩
    refine ⟨restartRefresh { s with crane := { port := s.crane.port.sent, flight := none } }, _,
      whileRunning_running _ running, rfl, fun nothing => ?_, fun pending => ?_⟩
    · rw [if_pos ⟨up, by simp [flight]⟩]
      exact startValve_idle nothing
    · rw [if_pos ⟨up, by simp [flight]⟩]
      exact startValve_starts pending rfl up
  · refine (whileRunning_running _ running).trans ?_
    simp only [timer, requestValve_eq]

/-- Settles O28. -/
theorem frameContents : Obligations.FrameContents := by
  refine ⟨fun s => ⟨rfl, fun k low high => ?_, ?_⟩, fun s => ⟨rfl, ?_, ?_, ?_, fun fits => bytes2_read fits⟩⟩
  · rw [valveContent_section]
    exact valveByte_toInt (by omega) (by omega)
  · have := s.demand.crane.code_le
    have := s.limiter.state.code_le
    exact byteOf_toNat_of_lt (by omega)
  · exact bytes2_read (by have := s.mgmt.flags.isLt; omega)
  · have := s.demand.crane.code_le
    exact byteOf_toNat_of_lt (by omega)
  · have := s.limiter.state.code_le
    exact byteOf_toNat_of_lt (by omega)
end

section
/-! Weigh cycles: timers, samples, attempts, triggers and requests (R107 to R126). -/

namespace Sys2Proof.Machine

/-! ### After an attempt (R122) -/

theorem afterAttempt_settles {c : Cycle} (retry : c.attempt ≤ c.params.retries) (each : c.params.settle = .each)
    (delay : 1 ≤ c.params.settleDelay) (busy : Bool) (w : WeighUnit) :
    afterAttempt c busy w = (enterSettling { c with attempt := c.attempt + 1 } w, .nothing) := by
  rw [afterAttempt, if_pos retry]
  exact if_pos ⟨each, delay⟩

theorem afterAttempt_samples {c : Cycle} (retry : c.attempt ≤ c.params.retries)
    (immediate : c.params.settle = .first ∨ c.params.settleDelay = 0) (busy : Bool) (w : WeighUnit) :
    afterAttempt c busy w = (enterSampling { c with attempt := c.attempt + 1 } busy w, .nothing) := by
  rw [afterAttempt, if_pos retry]
  refine if_neg fun ⟨each, delay⟩ => ?_
  obtain first | zero := immediate
  · cases first.symm.trans each
  · omega

theorem afterAttempt_completes {c : Cycle} {k : Kept} (exhausted : c.params.retries < c.attempt)
    (weigh : c.purpose = .weigh) (kept : c.kept = some k) (busy : Bool) (w : WeighUnit) :
    afterAttempt c busy w = (w.endCycle .none, .completed (weighedOf c k true w.tare)) := by
  rw [afterAttempt, if_neg (Nat.not_le.2 exhausted)]
  simp only [weigh, kept]
  rfl

theorem afterAttempt_void {c : Cycle} (exhausted : c.params.retries < c.attempt) (kept : c.kept = none) (busy : Bool)
    (w : WeighUnit) : afterAttempt c busy w = (w.endCycle .noSample, .failed) := by
  rw [afterAttempt, if_neg (Nat.not_le.2 exhausted)]
  cases purpose : c.purpose <;> simp only [kept]

theorem afterAttempt_fails {c : Cycle} {k : Kept} (exhausted : c.params.retries < c.attempt) (tare : c.purpose = .tare)
    (kept : c.kept = some k) (busy : Bool) (w : WeighUnit) :
    afterAttempt c busy w = (w.endCycle .unstable, .failed) := by
  rw [afterAttempt, if_neg (Nat.not_le.2 exhausted)]
  simp only [tare, kept]

/-! ### The window timer (R121) -/

/-- The kept attempt after the window timer has ended an attempt. -/
def windowKept (c : Cycle) : Option Kept :=
  match c.current.seen with
  | some seen => some (keptOf c.current seen)
  | none => c.kept

theorem endWindow_eq (c : Cycle) (busy : Bool) (w : WeighUnit) :
    endWindow c busy w = afterAttempt { c with kept := windowKept c } busy w := by
  unfold endWindow windowKept
  cases seen : c.current.seen
  case some => rfl
  case none => simp only

/-! ### Samples (R117, R119, R120) -/

/-- A load result in SAMPLING (R107). -/
theorem weighTakes_sampling {s : State} {c : Cycle} (sampling : s.weigh.phase = .sampling c) (r : LoadResult) :
    weighTakes r s =
      weighWorks
        ({ (takeSample c (roleOutput s .lift) r (scanBusy s) s.weigh).1 with
            prevGrapple := some (roleOutput s .grapple) },
          (takeSample c (roleOutput s .lift) r (scanBusy s) s.weigh).2) s := by
  unfold weighTakes weighAtResult
  simp only [sampling]

theorem takeSample_skipped {c : Cycle} (skip : c.current.skipScan = true) (lift : Int) (r : LoadResult) (busy : Bool)
    (w : WeighUnit) :
    takeSample c lift r busy w =
      ({ w with phase := .sampling { c with current := { c.current with skipScan := false } } }, .nothing) :=
  if_pos skip

theorem takeSample_passedOver {c : Cycle} {lift : Int} {r : LoadResult} (counts : c.current.skipScan = false)
    (h : (∃ cause stale, r = .invalid cause stale) ∨ (∃ v, r = .valid v ∧ v.weight = none) ∨
      lift < c.params.bandLo ∨ c.params.bandHi < lift) (busy : Bool) (w : WeighUnit) :
    takeSample c lift r busy w = (w, .nothing) := by
  unfold takeSample
  rw [if_neg (by simp [counts])]
  match r, h with
  | .invalid _ _, _ => rfl
  | .valid v, h =>
    simp only
    match weight : v.weight with
    | none => rfl
    | some x =>
      have outside : ¬ ((c.params.bandLo : Int) ≤ lift ∧ lift ≤ c.params.bandHi) := by
        obtain ⟨_, _, invalid⟩ | ⟨v', valid, none⟩ | beside := h
        · cases invalid
        · cases valid
          cases weight.symm.trans none
        · omega
      exact if_neg outside

/-- A result that qualifies (R119). -/
theorem takeSample_counted {c : Cycle} {lift : Int} {v : ValidLoad} {x : Int} (counts : c.current.skipScan = false)
    (weight : v.weight = some x) (low : (c.params.bandLo : Int) ≤ lift) (high : lift ≤ c.params.bandHi) (busy : Bool)
    (w : WeighUnit) :
    takeSample c lift (.valid v) busy w =
      if c.current.n + 1 = c.params.nSamples then
        endFullAttempt c (countSample v x c.current) (seenAfter v x c.current.seen) busy w
      else ({ w with phase := .sampling { c with current := countSample v x c.current } }, .nothing) := by
  unfold takeSample
  rw [if_neg (by simp [counts])]
  simp only [weight]
  exact if_pos ⟨low, high⟩

theorem endFullAttempt_stable_weigh {c : Cycle} {a : Attempt} {seen : Seen}
    (stable : seen.max - seen.min ≤ c.params.stabilityBand) (weigh : c.purpose = .weigh) (busy : Bool) (w : WeighUnit) :
    endFullAttempt c a seen busy w =
      (w.endCycle .none, .completed (weighedOf { c with current := a } (keptOf a seen) false w.tare)) := by
  unfold endFullAttempt
  simp only [if_pos stable, weigh]
  rfl

theorem endFullAttempt_stable_tare {c : Cycle} {a : Attempt} {seen : Seen}
    (stable : seen.max - seen.min ≤ c.params.stabilityBand) (tare : c.purpose = .tare) (busy : Bool) (w : WeighUnit) :
    endFullAttempt c a seen busy w = completeTare (keptOf a seen).mean w := by
  unfold endFullAttempt
  simp only [if_pos stable, tare]

/-- What a full attempt leaves, by the counted sample that filled it (R119, R120). -/
def fullKept (c : Cycle) (v : ValidLoad) (x : Int) : Kept :=
  { mean := meanOf (c.current.sum + x) c.params.nSamples
    n := c.params.nSamples
    uPeak := match v.rating with
      | some q => max c.current.uPeak q.utilisation
      | none => c.current.uPeak
    lastR := v.reach
    lastSector := match v.rating with
      | some q => q.sector
      | none => 255
    staleSeen := c.current.staleSeen || v.slewStale }

theorem keptOf_full {c : Cycle} (full : c.current.n + 1 = c.params.nSamples) (v : ValidLoad) (x : Int) :
    keptOf (countSample v x c.current) (seenAfter v x c.current.seen) = fullKept c v x := by
  unfold keptOf countSample seenAfter fullKept sampleU sampleSector
  rw [full]
  cases rating : v.rating <;> simp

/-- The cycle with the attempt that its last sample filled kept (R120). -/
def cycleAfterFull (c : Cycle) (v : ValidLoad) (x : Int) : Cycle :=
  { c with current := countSample v x c.current, kept := some (fullKept c v x) }

theorem endFullAttempt_unstable {c : Cycle} {v : ValidLoad} {x : Int} (full : c.current.n + 1 = c.params.nSamples)
    (unstable : c.params.stabilityBand <
      (seenAfter v x c.current.seen).max - (seenAfter v x c.current.seen).min) (busy : Bool) (w : WeighUnit) :
    endFullAttempt c (countSample v x c.current) (seenAfter v x c.current.seen) busy w =
      afterAttempt (cycleAfterFull c v x) busy w := by
  rw [cycleAfterFull, ← keptOf_full full]
  exact if_neg (not_le.2 unstable)

/-- The fields of a counted sample by its rating (R119). -/
theorem countSample_rating (v : ValidLoad) (x : Int) (a : Attempt) :
    (v.rating = none → (seenAfter v x a.seen).lastSector = 255 ∧ (countSample v x a).uPeak = a.uPeak) ∧
      ∀ q, v.rating = some q →
        (seenAfter v x a.seen).lastSector = q.sector ∧ (countSample v x a).uPeak = max a.uPeak q.utilisation := by
  constructor
  · intro none
    simp [seenAfter, countSample, sampleSector, sampleU, none]
  · intro q rating
    simp [seenAfter, countSample, sampleSector, sampleU, rating]

/-- The extremes of a counted sample (R119). -/
theorem seenAfter_extremes (v : ValidLoad) (x : Int) (seen : Option Seen) :
    (seen = none → (seenAfter v x seen).min = x ∧ (seenAfter v x seen).max = x) ∧
      ∀ z, seen = some z → (seenAfter v x seen).min = min z.min x ∧ (seenAfter v x seen).max = max z.max x := by
  constructor
  · rintro rfl
    exact ⟨rfl, rfl⟩
  · rintro z rfl
    exact ⟨rfl, rfl⟩

theorem completeTare_within {mean : Int} (low : -500 ≤ mean) (high : mean ≤ 500) (w : WeighUnit) :
    completeTare mean w = ({ w.endCycle .none with tare := mean }, .nothing) :=
  if_pos ⟨low, high⟩

theorem completeTare_outside {mean : Int} (h : mean < -500 ∨ 500 < mean) (w : WeighUnit) :
    completeTare mean w = (w.endCycle .tareRange, .failed) :=
  if_neg (by omega)

/-! ### Triggers (R111 to R113) -/

theorem weighTakes_idle {s : State} (idle : s.weigh.phase = .idle) (r : LoadResult) :
    weighTakes r s =
      { s with
        weigh :=
          { s.weigh with
            phase := if arms s.tables.wpt.active s.weigh.prevGrapple (roleOutput s .grapple) then .armed else .idle
            prevGrapple := some (roleOutput s .grapple) } } := by
  unfold weighTakes weighAtResult
  simp only [idle]
  split
  · rfl
  · rw [← idle]
    rfl

theorem weighTakes_armed {s : State} (armed : s.weigh.phase = .armed) (r : LoadResult) :
    weighTakes r s =
      { s with
        weigh :=
          { whenArmed s.tables.wpt.active s.demand.crane s.records.assortment (roleOutput s .lift)
              (roleOutput s .grapple) (scanBusy s) s.weigh with
            prevGrapple := some (roleOutput s .grapple) } } := by
  unfold weighTakes weighAtResult
  simp only [armed]
  rfl

theorem weighTakes_settling {s : State} {c : Cycle} (settling : s.weigh.phase = .settling c) (r : LoadResult) :
    weighTakes r s = { s with weigh := { s.weigh with prevGrapple := some (roleOutput s .grapple) } } := by
  unfold weighTakes weighAtResult
  simp only [settling]
  rfl

theorem arms_iff (ws : Image) (prev : Option Int) (grapple : Int) :
    arms (some ws) prev grapple = true ↔
      (wptParams ws).trigger = .auto ∧ grapple ≤ -((wptParams ws).closeThreshold : Int) ∧
        ∃ p, prev = some p ∧ -((wptParams ws).closeThreshold : Int) < p := by
  cases prev <;> simp [arms, and_assoc]

theorem roleOutput_of_empty {s : State} (empty : s.tables.fmt.active = none) (role : Role) : roleOutput s role = 0 := by
  simp only [roleOutput, empty]

theorem roleOutput_of_no_axis {s : State} {ws : Image} {role : Role} (fmt : s.tables.fmt.active = some ws)
    (h : ∀ i, (fmtAxis ws i).role ≠ role) : roleOutput s role = 0 := by
  simp only [roleOutput, fmt, (axisOfRole_eq_none ws role).2 h]

theorem roleOutput_of_unique {s : State} {ws : Image} {role : Role} {i k : Fin 6} (fmt : s.tables.fmt.active = some ws)
    (carries : (fmtAxis ws i).role = role) (only : ∀ j, (fmtAxis ws j).role = role → j = i)
    (drives : (fmtAxis ws i).drives = some k) : roleOutput s role = (s.shaper.sections.get k).output := by
  simp only [roleOutput, fmt, axisOfRole_of_unique carries only, drives]

/-! ### Requests (R114, R115, R126) -/

theorem startCycle_settling {p : WeighParams} (delay : 1 ≤ p.settleDelay) (purpose : Purpose) (source : CycleSource)
    (assortment : Fin 16) (busy : Bool) (w : WeighUnit) :
    startCycle purpose source p assortment busy w =
      { w with
        phase := .settling
          { purpose := purpose, source := source, params := p, assortment := assortment, attempt := 1
            current := freshAttempt (p.settleDelay = 0 && busy), kept := none }
        settleTimer := some (10 * p.settleDelay)
        windowTimer := none } := by
  have noSkip : (decide (p.settleDelay = 0) && busy) = false := by simp; omega
  rw [noSkip]
  exact if_pos delay

theorem startCycle_sampling {p : WeighParams} (immediate : p.settleDelay = 0) (purpose : Purpose) (source : CycleSource)
    (assortment : Fin 16) (busy : Bool) (w : WeighUnit) :
    startCycle purpose source p assortment busy w =
      { w with
        phase := .sampling
          { purpose := purpose, source := source, params := p, assortment := assortment, attempt := 1
            current := freshAttempt (p.settleDelay = 0 && busy), kept := none }
        settleTimer := none
        windowTimer := some (10 * p.windowTimeout) } := by
  have skip : (decide (p.settleDelay = 0) && busy) = busy := by simp [immediate]
  rw [skip]
  exact if_neg (by omega)

theorem requestCycle_noTable {s : State} (empty : s.tables.wpt.active = none) (purpose : Purpose) :
    requestCycle purpose s = (s, .bare .noTable) := by
  simp only [requestCycle, empty]

theorem requestCycle_busy {s : State} (valid : s.tables.wpt.active ≠ none) (running : s.weigh.phase.running = true)
    (purpose : Purpose) : requestCycle purpose s = (s, .bare .busy) := by
  obtain ⟨ws, wpt⟩ := Option.ne_none_iff_exists'.1 valid
  simp only [requestCycle, wpt, running, if_true]

theorem requestCycle_state {s : State} (valid : s.tables.wpt.active ≠ none) (still : s.weigh.phase.running = false)
    (inactive : s.demand.crane ≠ .active) (purpose : Purpose) : requestCycle purpose s = (s, .bare .state) := by
  obtain ⟨ws, wpt⟩ := Option.ne_none_iff_exists'.1 valid
  simp only [requestCycle, wpt, still, Bool.false_eq_true, if_false, if_pos inactive]

theorem requestCycle_starts {s : State} {ws : Image} (wpt : s.tables.wpt.active = some ws)
    (still : s.weigh.phase.running = false) (active : s.demand.crane = .active) (purpose : Purpose) :
    requestCycle purpose s =
      ({ s with weigh := startCycle purpose .request (wptParams ws) s.records.assortment (scanBusy s) s.weigh },
        { status := .ok
          data := [byteOf
            (startCycle purpose .request (wptParams ws) s.records.assortment (scanBusy s) s.weigh).phase.code] }) := by
  simp only [requestCycle, wpt, still, active, Bool.false_eq_true, if_false, ne_eq, not_true_eq_false]

/-- The state in which a decision looks at the request that has just been taken (R174). -/
def requestTaken (rest : List (List Byte)) (s : State) : State :=
  { s with cab := { s.cab with requests := rest } }

/-- A served request whose decision changes the Weigh Unit alone. -/
theorem serve_starts_of_weigh {req : Option Request} {s : State} {frame : List Byte} {rest : List (List Byte)}
    (h : Serving req s frame rest) {d : List Byte → State → State × Reply} {u : WeighUnit} {st : Status}
    {data : List Byte}
    (hd : d frame { s with cab := { s.cab with requests := rest } } =
      ({ s with cab := { s.cab with requests := rest }, weigh := u }, { status := st, data := data })) :
    CabStarts (answered frame rest st.code data { s with weigh := u }) (serve req false d s) :=
  serve_starts (w := { s with weigh := u }) h rfl id hd

theorem WeighPhase.running_of_cycle {p : WeighPhase} (h : (∃ c, p = .settling c) ∨ ∃ c, p = .sampling c) :
    p.running = true := by
  obtain ⟨c, rfl⟩ | ⟨c, rfl⟩ := h <;> rfl

theorem WeighPhase.still_of_rest {p : WeighPhase} (h : p = .idle ∨ p = .armed) : p.running = false := by
  obtain rfl | rfl := h <;> rfl

theorem decideCancelWeigh_running {s : State}
    (running : (∃ c, s.weigh.phase = .settling c) ∨ ∃ c, s.weigh.phase = .sampling c) (frame : List Byte) :
    decideCancelWeigh frame s = (cycleAborted .cancelled s, { status := .ok, data := [0] }) := by
  have aborted : abortCycle .cancelled s = cycleAborted .cancelled s := if_pos (WeighPhase.running_of_cycle running)
  simp only [decideCancelWeigh, WeighPhase.running_of_cycle running, if_true, aborted]
  rfl

theorem decideCancelWeigh_still {s : State} (still : s.weigh.phase = .idle ∨ s.weigh.phase = .armed)
    (frame : List Byte) :
    decideCancelWeigh frame s =
      ({ s with weigh := { s.weigh with phase := .idle } }, { status := .ok, data := [0] }) := by
  simp only [decideCancelWeigh, WeighPhase.still_of_rest still, Bool.false_eq_true, if_false]
  rfl

/-! ### Rounding (R120, R123) -/

theorem meanOf_natAbs (sum : Int) {n : Nat} (h : 1 ≤ n) : (meanOf sum n).natAbs = (2 * sum.natAbs + n) / (2 * n) := by
  rw [meanOf, Int.natAbs_mul, Int.natAbs_natCast]
  obtain rfl | nonzero := eq_or_ne sum 0
  · rw [Nat.div_eq_of_lt (by simp; omega)]
    rfl
  · rw [Int.natAbs_sign_of_ne_zero nonzero, Nat.one_mul]

end Sys2Proof.Machine

open Sys2Proof Sys2Proof.Machine

/-- Settles O29. -/
theorem cycleTimers : Obligations.CycleTimers := by
  refine ⟨fun s c d running settling timer => ?_, fun s c d running sampling timer => ?_⟩
  · refine ⟨_, s.scan.inProgress.isSome, whileRunning_running _ running, Option.isSome_iff_ne_none, ?_⟩
    simp only [settling, timer]
    rfl
  · refine ⟨windowKept c, weighWorks (endWindow c (scanBusy s) s.weigh) s, _, whileRunning_running _ running, ?_,
      fun none => ?_, fun seen some => ?_, fun retry each delay => ?_, fun retry immediate => ?_,
      fun k exhausted weigh kept => ?_, fun exhausted kept => ?_, fun k exhausted tare kept => ?_⟩
    · simp only [sampling, timer]
      exact startCab_spec _
    · simp only [windowKept, none]
    · simp only [windowKept, some, keptOf]
    · rw [endWindow_eq, afterAttempt_settles (c := { c with kept := windowKept c }) retry each delay]
      rfl
    · rw [endWindow_eq, afterAttempt_samples (c := { c with kept := windowKept c }) retry immediate]
      rfl
    · rw [endWindow_eq, afterAttempt_completes (c := { c with kept := windowKept c }) exhausted weigh kept]
      exact ⟨_, weighedOf_handedOver c k true s.weigh.tare, rfl⟩
    · rw [endWindow_eq, afterAttempt_void (c := { c with kept := windowKept c }) exhausted kept]
      rfl
    · rw [endWindow_eq, afterAttempt_fails (c := { c with kept := windowKept c }) exhausted tare kept]
      rfl

/-- Settles O33. -/
theorem meanAndMassAreRounded : Obligations.MeanAndMassAreRounded := by
  refine ⟨fun sum n positive => ?_, fun net => ?_⟩
  · have remainder := Nat.mod_lt (2 * sum.natAbs + n) (show 0 < 2 * n by omega)
    have division := Nat.div_add_mod (2 * sum.natAbs + n) (2 * n)
    rw [meanOf_natAbs sum positive]
    have product : (2 * n : Int) * ((2 * sum.natAbs + n) / (2 * n) : Nat) =
        (2 * n * ((2 * sum.natAbs + n) / (2 * n)) : Nat) := by push_cast; ring
    refine ⟨by omega, by omega, fun nonneg => ?_, fun nonpos => ?_⟩
    · exact mul_nonneg (Int.sign_nonneg_iff.2 nonneg) (Int.natCast_nonneg _)
    · exact mul_nonpos_of_nonpos_of_nonneg (Int.sign_nonpos_iff.2 nonpos) (Int.natCast_nonneg _)
  · unfold massOf
    omega
/-- Settles O30: a load result in SAMPLING is what `takeSample` makes of it. -/
theorem samplesAndStability : Obligations.SamplesAndStability := by
  refine ⟨fun s c r sampling => ?_, fun s c r v x sampling counts valid weight low high full => ?_⟩
  · simp only
    rw [weighTakes_sampling sampling]
    refine ⟨fun skip => ?_, fun counts => ⟨fun passed => ?_, fun v x valid weight low high more => ?_⟩⟩
    · rw [takeSample_skipped skip]
      rfl
    · rw [takeSample_passedOver counts passed]
      rfl
    · rw [valid, takeSample_counted counts weight low high, if_neg more]
      obtain ⟨unrated, rated⟩ := countSample_rating v x c.current
      obtain ⟨first, later⟩ := seenAfter_extremes v x c.current.seen
      exact ⟨countSample v x c.current, seenAfter v x c.current.seen, rfl, rfl, rfl, rfl, first, later, rfl, unrated,
        rated, Bool.or_eq_true_iff, counts⟩
  · subst valid
    simp only
    rw [weighTakes_sampling sampling, takeSample_counted counts weight low high, if_pos full]
    refine ⟨fun stable => ⟨fun weigh => ?_, fun tare below above => ?_, fun tare outside => ?_⟩,
      fun unstable => ⟨fun retry each delay => ?_, fun retry immediate => ?_, fun exhausted weigh => ?_,
        fun exhausted tare => ?_⟩⟩
    · rw [endFullAttempt_stable_weigh stable weigh, keptOf_full full]
      refine ⟨_, rfl, rfl, rfl, rfl, rfl, rfl, rfl, rfl, rfl, ?_, ?_, ?_⟩
      · simp [weighedOf, fullKept]
      · simp [weighedOf]
      · simp [weighedOf, fullKept]
    · rw [endFullAttempt_stable_tare stable tare, keptOf_full full,
        completeTare_within (mean := (fullKept c v x).mean) below above]
      rfl
    · rw [endFullAttempt_stable_tare stable tare, keptOf_full full,
        completeTare_outside (mean := (fullKept c v x).mean) outside]
      rfl
    · rw [endFullAttempt_unstable full unstable, afterAttempt_settles (c := cycleAfterFull c v x) retry each delay]
      exact ⟨_, rfl⟩
    · rw [endFullAttempt_unstable full unstable, afterAttempt_samples (c := cycleAfterFull c v x) retry immediate]
      rfl
    · rw [endFullAttempt_unstable full unstable, afterAttempt_completes (c := cycleAfterFull c v x) exhausted weigh rfl]
      exact ⟨_, weighedOf_handedOver c (fullKept c v x) true s.weigh.tare, rfl⟩
    · rw [endFullAttempt_unstable full unstable, afterAttempt_fails (c := cycleAfterFull c v x) exhausted tare rfl]
      rfl

/-- Settles O31. -/
theorem autoArmsDisarmsAndFires : Obligations.AutoArmsDisarmsAndFires := by
  refine ⟨fun s r ws wpt => ⟨fun idle => ?_, fun armed => ?_⟩, ?_, fun s role => ⟨(roleOutput_of_empty · role),
    fun ws fmt => ⟨roleOutput_of_no_axis fmt, fun i k => roleOutput_of_unique fmt⟩⟩⟩
  · rw [weighTakes_idle idle, wpt]
    refine ⟨fun prev before auto below crossed => ?_, fun without => ?_⟩
    · rw [if_pos ((arms_iff ..).2 ⟨auto, below, prev, before, crossed⟩)]
    · have stays : ¬ arms (some ws) s.weigh.prevGrapple (roleOutput s .grapple) = true := by
        rw [arms_iff]
        rintro ⟨auto, below, prev, before, crossed⟩
        obtain none | other | above | ⟨p, same, closed⟩ := without
        · cases none.symm.trans before
        · exact other auto
        · omega
        · cases same.symm.trans before
          omega
      rw [if_neg stays, ← idle]
  · rw [weighTakes_armed armed, wpt]
    simp only [whenArmed]
    refine ⟨fun closed => ?_, fun opened auto low high active => ?_, fun opened without => ?_⟩
    · rw [if_pos closed]
    · rw [if_neg (not_le.2 opened), if_pos ⟨auto, low, high, active⟩]
      rfl
    · rw [if_neg (not_le.2 opened), if_neg]
      rintro ⟨auto, low, high, active⟩
      obtain other | below | above | still := without
      · exact other auto
      · omega
      · omega
      · exact still active
  · rintro s r (⟨idle, empty⟩ | ⟨c, settling⟩)
    · rw [weighTakes_idle idle, empty, ← idle]
      rfl
    · exact weighTakes_settling settling r

/-- Settles O32. -/
theorem weighRequests : Obligations.WeighRequests := by
  refine ⟨wptParams_fields, fun s frame rest req cmd purpose command serving => ?_, fun s frame rest serving => ?_⟩
  · obtain ⟨d, runs, decides⟩ : ∃ d, exec cmd s = whileRunning s (serve (some req) false d s) ∧
        ∀ f u, d f u = requestCycle purpose u := by
      obtain ⟨rfl, rfl, rfl⟩ | ⟨rfl, rfl, rfl⟩ := command
      · exact ⟨decideWeighNow, rfl, fun _ _ => rfl⟩
      · exact ⟨decideTare, rfl, fun _ _ => rfl⟩
    refine ⟨_, runs.trans (whileRunning_running _ serving.running), fun empty => ?_, fun valid running => ?_,
      fun valid rests inactive => ?_, fun ws wpt rests active => ?_⟩
    · exact serve_starts_of_weigh serving (st := .noTable)
        ((decides ..).trans (requestCycle_noTable (s := requestTaken rest s) empty purpose))
    · exact serve_starts_of_weigh serving (st := .busy)
        ((decides ..).trans
          (requestCycle_busy (s := requestTaken rest s) valid (WeighPhase.running_of_cycle running) purpose))
    · exact serve_starts_of_weigh serving (st := .state)
        ((decides ..).trans
          (requestCycle_state (s := requestTaken rest s) valid (WeighPhase.still_of_rest rests) inactive purpose))
    · have starts := serve_starts_of_weigh serving (st := .ok)
        ((decides ..).trans
          (requestCycle_starts (s := requestTaken rest s) wpt (WeighPhase.still_of_rest rests) active purpose))
      refine ⟨fun delay => ?_, fun immediate => ?_⟩
      · rwa [startCycle_settling delay] at starts
      · rwa [startCycle_sampling immediate] at starts
  · refine ⟨_, whileRunning_running _ serving.running, fun running => ?_, fun armed => ?_, fun idle => ?_⟩
    · exact serve_answers serving (w := cycleAborted .cancelled s) (st := .ok) rfl
        (decideCancelWeigh_running (s := requestTaken rest s) running frame)
    · exact serve_starts_of_weigh serving (st := .ok)
        (decideCancelWeigh_still (s := requestTaken rest s) (.inr armed) frame)
    · have starts := serve_starts_of_weigh serving (st := .ok)
        (decideCancelWeigh_still (s := requestTaken rest s) (.inl idle) frame)
      rwa [show { (requestTaken rest s).weigh with phase := .idle } = s.weigh by rw [← idle]; rfl] at starts
end

section
/-! The Record Unit: arrivals, reads and acknowledgements (R130 to R141). -/

namespace Sys2Proof.Machine

/-! ### Arrival -/

theorem numberAfter_wraps {n : Nat} (h : n = 65535) : numberAfter n = 1 :=
  if_pos h

theorem numberAfter_succ {n : Nat} (h : n ≠ 65535) : numberAfter n = n + 1 :=
  if_neg h

theorem sortAt_of_getElem? {tally : List SortTally} {k : Nat} {x : SortTally} (h : tally[k]? = some x) :
    sortAt tally k = x := by
  rw [sortAt, List.getD_eq_getElem?_getD, h, Option.getD_some]

theorem completedRecord_outside (u : RecordUnit) (w : Weighed) :
    (completedRecord u w).outside = true ↔ u.tallyState = .closed :=
  beq_iff_eq

theorem completedRecord_unload (u : RecordUnit) (w : Weighed) :
    (completedRecord u w).unload = true ↔ u.tallyState = .unloading :=
  beq_iff_eq

/-- UNDERRUN: unloading takes off more than the sort holds (R133). -/
theorem completedRecord_underrun {u : RecordUnit} {w : Weighed} (sorts : u.tally.length = 16) :
    (completedRecord u w).underrun = true ↔
      u.tallyState = .unloading ∧ ∃ x, u.tally[w.assortment.val]? = some x ∧ x.mass < w.mass := by
  have inside : w.assortment.val < u.tally.length := by omega
  have own : u.tally[w.assortment.val]? = some (sortAt u.tally w.assortment.val) := by
    rw [sortAt, List.getD_eq_getElem?_getD, List.getElem?_eq_getElem inside, Option.getD_some]
  simp [completedRecord, own]

/-- The credit touches the record's own sort alone (R133). -/
theorem arrive_tally_other (u : RecordUnit) {w : Weighed} {k : Nat} (h : k ≠ w.assortment.val) :
    (u.arrive w).tally[k]? = u.tally[k]? :=
  List.getElem?_modify_ne _ _ h.symm

theorem arrive_tally_own {u : RecordUnit} {w : Weighed} {x : SortTally} (h : u.tally[w.assortment.val]? = some x) :
    (u.arrive w).tally[w.assortment.val]? = some (creditSort u.tallyState w.mass x) := by
  show (u.tally.modify _ _)[_]? = _
  rw [List.getElem?_modify_eq, h]
  rfl

/-- What a credit writes, by the tally state (R133). -/
theorem creditSort_cases (t : TallyState) (mass : Nat) (x : SortTally) :
    (t = .closed → creditSort t mass x = x) ∧
      (t ≠ .closed → (creditSort t mass x).lifts = min (x.lifts + 1) 65535) ∧
      (t = .loading → (creditSort t mass x).mass = min (x.mass + mass) 4294967295) ∧
      (t = .unloading → (creditSort t mass x).mass = x.mass - mass) := by
  cases t <;> simp [creditSort]

theorem arrive_with_room {s : State} (room : s.records.queue.length < 48) (w : Weighed) :
    (s.records.arrive w).queue = s.records.queue ++ [completedRecord s.records w] ∧
      (s.records.arrive w).displaced = s.records.displaced ∧
      recordArrives w s = raise .record { s with records := s.records.arrive w } := by
  have notFull : s.records.full = false := decide_eq_false (Nat.not_le.2 room)
  simp [RecordUnit.arrive, recordArrives, notFull, raiseIf]

/-- The oldest of 48 is displaced (R132). -/
theorem arrive_when_full {s : State} (full : 48 ≤ s.records.queue.length) (w : Weighed) :
    (s.records.arrive w).queue = s.records.queue.tail ++ [completedRecord s.records w] ∧
      (s.records.arrive w).displaced = min (s.records.displaced + 1) 255 ∧
      recordArrives w s = raise .record (raise .overrun { s with records := s.records.arrive w }) := by
  have isFull : s.records.full = true := decide_eq_true full
  simp [RecordUnit.arrive, recordArrives, isFull, raiseIf]

/-! ### Acknowledgement -/

theorem newerThan_eq_none {number : Nat} {q : List LiftRecord} (h : ∀ r ∈ q, r.number ≠ number) :
    newerThan number q = none := by
  induction q with
  | nil => rfl
  | cons r q ih =>
    rw [newerThan, if_neg (h r List.mem_cons_self)]
    exact ih fun r' hr' => h r' (List.mem_cons_of_mem _ hr')

theorem newerThan_append {number : Nat} {older newer : List LiftRecord} {named : LiftRecord}
    (is : named.number = number) (first : ∀ r ∈ older, r.number ≠ number) :
    newerThan number (older ++ named :: newer) = some newer := by
  induction older with
  | nil => exact if_pos is
  | cons r older ih =>
    rw [List.cons_append, newerThan, if_neg (first r List.mem_cons_self)]
    exact ih fun r' hr' => first r' (List.mem_cons_of_mem _ hr')

theorem decideAckRecords_unknown {frame : List Byte} {s : State}
    (h : ∀ r ∈ s.records.queue, r.number ≠ pairAt frame 1) : decideAckRecords frame s = (s, .bare .notFound) := by
  simp only [decideAckRecords, newerThan_eq_none h]

theorem decideAckRecords_removes {frame : List Byte} {s : State} {older newer : List LiftRecord} {named : LiftRecord}
    (queue : s.records.queue = older ++ named :: newer) (is : named.number = pairAt frame 1)
    (first : ∀ r ∈ older, r.number ≠ pairAt frame 1) :
    decideAckRecords frame s =
      ({ s with records := { s.records with queue := newer } },
        { status := .ok, data := [byteOf (older.length + 1), byteOf newer.length] }) := by
  have removed : (older ++ named :: newer).length - newer.length = older.length + 1 := by
    simp only [List.length_append, List.length_cons]
    omega
  simp only [decideAckRecords, queue, newerThan_append is first, removed]

end Sys2Proof.Machine

open Sys2Proof Sys2Proof.Machine

/-- Settles O34. -/
theorem recordArrival : Obligations.RecordArrival := by
  intro s w
  refine ⟨s.records.arrive w, completedRecord s.records w, _, rfl, rfl, rfl, completedRecord_outside _ w,
    completedRecord_unload _ w, completedRecord_underrun, rfl, rfl, numberAfter_wraps, numberAfter_succ,
    fun k => arrive_tally_other _, fun x own => ⟨_, arrive_tally_own own, creditSort_cases _ _ _⟩,
    fun room => arrive_with_room room w, fun full => arrive_when_full full w⟩

/-- Settles O35. -/
theorem recordReadsAndAcknowledgement : Obligations.RecordReadsAndAcknowledgement := by
  refine ⟨fun s frame rest => ⟨fun serving => ⟨_, whileRunning_running _ serving.running, ?_, ?_, ?_⟩,
    fun serving => ⟨_, whileRunning_running _ serving.running, ?_, ?_, ?_⟩⟩,
    fun s frame rest serving => ⟨_, whileRunning_running _ serving.running, ?_, ?_⟩⟩
  · intro beyond
    exact serve_starts_of_records serving (u := s.records) (st := .range) (if_pos beyond)
  · intro part missing
    refine serve_starts_of_records serving (u := s.records) (st := .notFound) ?_
    simp only [decideReadRecord, if_neg (Nat.not_lt.2 part), List.getElem?_eq_none missing]
    rfl
  · intro r part found
    have decided := fun data (h : data = if (byteAt frame 2).toNat = 0 then recordPart0 r else recordPart1 r) =>
      serve_starts_of_records serving (u := s.records) (st := .ok) (d := decideReadRecord) (data := data)
        (by simp only [decideReadRecord, if_neg (Nat.not_lt.2 part), found, h])
    refine ⟨fun zero => decided _ ?_, fun one => decided _ ?_⟩
    · rw [if_pos zero]
      rfl
    · rw [if_neg (by omega)]
      rfl
  · intro x sort own
    refine serve_starts_of_records serving (u := s.records) (st := .ok) ?_
    simp only [decideReadTally, if_pos sort, sortAt_of_getElem? own]
    rfl
  · intro sums
    refine serve_starts_of_records serving (u := s.records) (st := .ok) ?_
    simp only [decideReadTally, sums]
    rfl
  · intro beyond
    refine serve_starts_of_records serving (u := s.records) (st := .range) ?_
    simp only [decideReadTally, if_neg (show ¬ (byteAt frame 1).toNat < 16 by omega),
      if_neg (show ¬ (byteAt frame 1).toNat = 16 by omega)]
    rfl
  · intro missing
    exact serve_starts_of_records serving (u := s.records) (st := .notFound)
      (decideAckRecords_unknown (s := requestTaken rest s) missing)
  · intro older named newer queue is first
    exact serve_starts_of_records serving (st := .ok)
      (decideAckRecords_removes (s := requestTaken rest s) queue is first)
end

section
/-! Table images: WRITE_WORDS, READ_WORDS and COMMIT (R145 to R161, R164). -/

namespace Sys2Proof.Machine

/-! ### WRITE_WORDS -/

theorem frameWords_length {n : Nat} (h : n ≤ 3) (frame : List Byte) : (frameWords frame n).length = n := by
  simpa [frameWords] using h

/-- The words of a WRITE_WORDS frame stand from byte 2 on (R148). -/
theorem frameWords_getElem {n i : Nat} (fits : n ≤ 3) (inside : i < n) (frame : List Byte) :
    (frameWords frame n)[i]'(by rwa [frameWords_length fits]) =
      BitVec.ofNat 16 ((byteAt frame (2 + 2 * i)).toNat + 256 * (byteAt frame (3 + 2 * i)).toNat) := by
  have : i = 0 ∨ i = 1 ∨ i = 2 := by omega
  simp only [frameWords, List.getElem_take]
  obtain rfl | rfl | rfl := this <;> rfl

theorem decideWriteWords_of_range {frame : List Byte} (h : (byteAt frame 1).toNat = 0 ∨ 3 < (byteAt frame 1).toNat)
    (s : State) : decideWriteWords frame s = (s, .bare .range) := by
  refine if_neg ?_
  rw [inRange_iff]
  omega

/-- The images after words have been written at the cursor (R148). -/
def wordsWritten (frame : List Byte) (n : Nat) (t : TableStore) : KindTable :=
  { t.kind t.cursorKind with
    shadow := writeFrom (t.kind t.cursorKind).shadow t.cursorIndex (frameWords frame n)
    dirty := (t.kind t.cursorKind).dirty || n != 0 }

theorem decideWriteWords_of_count {frame : List Byte} (low : 1 ≤ (byteAt frame 1).toNat)
    (high : (byteAt frame 1).toNat ≤ 3) {s : State} {n : Nat}
    (hn : n = min (byteAt frame 1).toNat (s.tables.cursorKind.words - s.tables.cursorIndex)) :
    decideWriteWords frame s =
      ({ s with
          tables :=
            { s.tables.setKind s.tables.cursorKind (wordsWritten frame n s.tables) with
              cursorIndex := s.tables.cursorIndex + n } },
        { status := if n = (byteAt frame 1).toNat then .ok else .range
          data := [byteOf n, byteOf (s.tables.cursorIndex + n), byteOf ((s.tables.cursorIndex + n) / 256),
            flagByte (wordsWritten frame n s.tables).dirty] }) := by
  subst hn
  exact if_pos ((inRange_iff ..).2 ⟨low, high⟩)

theorem okOrRange_code (p : Prop) [Decidable p] : (if p then Status.ok else Status.range).code = if p then 0 else 2 := by
  split <;> rfl

/-! ### READ_WORDS -/

theorem wordsData_length (ws : List Word) : (wordsData ws).length = 2 * ws.length := by
  induction ws with
  | nil => rfl
  | cons w ws ih =>
    show (bytes2 w.toNat ++ wordsData ws).length = _
    rw [List.length_append, ih, List.length_cons]
    show 2 + _ = _
    omega

/-- The words read stand little-endian one after the other (R149). -/
theorem byteAt_wordsData (ws : List Word) {i : Nat} (h : i < ws.length) :
    byteAt (wordsData ws) (2 * i) = byteOf ws[i].toNat ∧
      byteAt (wordsData ws) (2 * i + 1) = byteOf (ws[i].toNat / 256) := by
  induction ws generalizing i with
  | nil => simp at h
  | cons w ws ih =>
    cases i with
    | zero => exact ⟨rfl, rfl⟩
    | succ i => exact ih (Nat.lt_of_succ_lt_succ h)

theorem decideReadWords_of_range {frame : List Byte}
    (h : 1 < (byteAt frame 1).toNat ∨ (byteAt frame 2).toNat = 0 ∨ 3 < (byteAt frame 2).toNat) (s : State) :
    decideReadWords frame s = (s, .bare .range) := by
  refine if_pos (h.imp_right fun count => ?_)
  rw [← Bool.not_eq_true, inRange_iff]
  omega

theorem decideReadWords_of_empty {frame : List Byte} {s : State} (bank : (byteAt frame 1).toNat = 0)
    (low : 1 ≤ (byteAt frame 2).toNat) (high : (byteAt frame 2).toNat ≤ 3)
    (empty : (s.tables.kind s.tables.cursorKind).active = none) :
    decideReadWords frame s = (s, .bare .noTable) := by
  have accepted : ¬ (1 < (byteAt frame 1).toNat ∨ inRange 1 3 (byteAt frame 2).toNat = false) := by
    rw [← Bool.not_eq_true, inRange_iff]
    omega
  unfold decideReadWords
  simp only [if_neg accepted]
  simp only [bank, if_true, empty]

/-- A bank that has words is read at the cursor (R149). -/
theorem decideReadWords_of_bank {frame : List Byte} {s : State} {ws : Image}
    (bank : ((byteAt frame 1).toNat = 0 ∧ (s.tables.kind s.tables.cursorKind).active = some ws) ∨
      ((byteAt frame 1).toNat = 1 ∧ ws = (s.tables.kind s.tables.cursorKind).shadow))
    (low : 1 ≤ (byteAt frame 2).toNat) (high : (byteAt frame 2).toNat ≤ 3) :
    decideReadWords frame s = readAtCursor ws (byteAt frame 2).toNat s := by
  have accepted : ¬ (1 < (byteAt frame 1).toNat ∨ inRange 1 3 (byteAt frame 2).toNat = false) := by
    rw [← Bool.not_eq_true, inRange_iff]
    omega
  unfold decideReadWords
  simp only [if_neg accepted]
  obtain ⟨zero, active⟩ | ⟨one, rfl⟩ := bank
  · simp only [zero, if_true, active]
  · rw [if_neg (by omega)]

theorem readAtCursor_at_end {ws : Image} {s : State} (h : s.tables.cursorKind.words ≤ s.tables.cursorIndex)
    (count : Nat) : readAtCursor ws count s = (s, .bare .range) :=
  if_pos h

theorem readAtCursor_before_end {ws : Image} {s : State} (h : s.tables.cursorIndex < s.tables.cursorKind.words)
    (count : Nat) {n : Nat} (hn : n = min count (s.tables.cursorKind.words - s.tables.cursorIndex)) :
    readAtCursor ws count s =
      ({ s with tables := { s.tables with cursorIndex := s.tables.cursorIndex + n } },
        { status := if n = count then .ok else .range
          data := wordsData ((ws.drop s.tables.cursorIndex).take n) }) := by
  subst hn
  exact if_neg (Nat.not_le.2 h)

/-! ### COMMIT -/

theorem protectionAllows_eq_false {t : TableStore} {k : Kind} :
    protectionAllows t k = false ↔
      t.protectSet.getLsbD (k.code - 1) = true ∧
        (t.held = true ∨ t.mode = .fixed ∨ (t.mode = .keyed ∧ t.keyLevel = .opened)) := by
  unfold protectionAllows isProtected
  cases t.protectSet.getLsbD (k.code - 1) <;> cases t.held <;> cases t.mode <;> cases t.keyLevel <;> simp

theorem decideCommit_of_no_kind {frame : List Byte} (h : (byteAt frame 1).toNat = 0 ∨ 5 < (byteAt frame 1).toNat)
    (s : State) : decideCommit frame s = (s, .bare .range) := by
  simp only [decideCommit, kindOfCode_eq_none.2 h]

theorem decideCommit_of_refusal {frame : List Byte} {k : Kind} {s : State} {r : Reply}
    (code : k.code = (byteAt frame 1).toNat) (refused : commitRefusal s.tables k (pairAt frame 2) = some r) :
    decideCommit frame s = (s, r) := by
  simp only [decideCommit, kindOfCode_eq_some.2 code, refused]

section
variable {t : TableStore} {k : Kind} {given : Nat}

theorem commitRefusal_busy (busy : t.persist ≠ .idle) : commitRefusal t k given = some (.bare .busy) :=
  if_pos busy

theorem commitRefusal_locked (idle : t.persist = .idle) (locked : protectionAllows t k = false) :
    commitRefusal t k given = some (.bare .locked) :=
  (if_neg (not_not.2 idle)).trans (if_pos locked)

theorem commitRefusal_checksum (idle : t.persist = .idle) (allowed : ¬ protectionAllows t k = false)
    (sum : wordSum (t.kind k).shadow ≠ given) :
    commitRefusal t k given = some { status := .checksum, data := bytes2 (wordSum (t.kind k).shadow) } :=
  (if_neg (not_not.2 idle)).trans ((if_neg allowed).trans (if_pos sum))

theorem commitRefusal_fields (idle : t.persist = .idle) (allowed : ¬ protectionAllows t k = false)
    (sum : wordSum (t.kind k).shadow = given) :
    commitRefusal t k given =
      (firstBadWord k (t.kind k).shadow).map fun j => { status := .field, data := bytes2 j } := by
  simp only [commitRefusal, idle, ne_eq, not_true_eq_false, if_false, if_neg allowed, sum]
  cases firstBadWord k (t.kind k).shadow <;> rfl

end

theorem decideCommit_accepted {frame : List Byte} {k : Kind} {s : State} (code : k.code = (byteAt frame 1).toNat)
    (idle : s.tables.persist = .idle) (allowed : ¬ protectionAllows s.tables k = false)
    (sum : wordSum (s.tables.kind k).shadow = pairAt frame 2)
    (passes : firstBadWord k (s.tables.kind k).shadow = none) :
    decideCommit frame s =
      (acceptedBy k { s with tables := s.tables.accept k },
        { status := .ok, data := [byteAt frame 1, byteAt frame 2, byteAt frame 3] }) := by
  have none : commitRefusal s.tables k (pairAt frame 2) = none :=
    (commitRefusal_fields idle allowed sum).trans (congrArg _ passes)
  have echo : byteOf k.code :: bytes2 (wordSum (s.tables.kind k).shadow) =
      [byteAt frame 1, byteAt frame 2, byteAt frame 3] := by
    rw [sum, code, byteOf_toNat, bytes2_pairAt]
  simp only [decideCommit, kindOfCode_eq_some.2 code, none, echo]

/-- The state that an accepted FMT brings before its valve frame is requested (R79, R103, R126). -/
def fmtReached (u : State) : State :=
  let w := activeSentToReady { u with demand := { u.demand with targets := Six.same 0 } }
  restartRefresh { w with weigh := { w.weigh with prevGrapple := none } }

theorem fmtAccepted_eq (u : State) : fmtAccepted u = valveRequested (fmtReached u) := by
  rw [fmtAccepted, requestValve_eq, activeToReady_eq]
  rfl

theorem fmtReached_tables (u : State) : (fmtReached u).tables = u.tables := by
  simp [fmtReached, ← activeToReady_eq, restartRefresh]

theorem fmtReached_requests (u : State) (r : List (List Byte)) :
    fmtReached { u with cab := { u.cab with requests := r } } =
      { fmtReached u with cab := { (fmtReached u).cab with requests := r } } := by
  have ready := activeSentToReady_requests { u with demand := { u.demand with targets := Six.same 0 } } r
  unfold fmtReached
  simp only at ready ⊢
  rw [ready]
  rfl

/-- The refresh timer of an accepted FMT runs for the new image's period (R103). -/
theorem fmtReached_refresh (u : State) :
    fmtReached u = { fmtReached u with
      valve := { (fmtReached u).valve with refreshTimer := some (refreshMillis u.tables.fmt.active) } } := by
  conv_rhs => rw [← fmtReached_tables u]
  rfl

/-- An acceptance leaves the request FIFO to the management path. -/
theorem acceptedBy_requests (k : Kind) (u : State) (r : List (List Byte)) :
    acceptedBy k { u with cab := { u.cab with requests := r } } =
      { acceptedBy k u with cab := { (acceptedBy k u).cab with requests := r } } := by
  cases k
  case fmt =>
    simp only [acceptedBy, fmtAccepted_eq, fmtReached_requests]
    exact valveRequested_requests _ r
  case cal | bmt =>
    simp only [acceptedBy, abortCycle_eq]
    exact abortedIfRunning_requests .table u r
  case rct => rfl
  case wpt =>
    simp only [acceptedBy, wptAccepted, abortCycle_eq]
    split
    · rfl
    · exact abortedIfRunning_requests .table u r

/-! ### PERSIST -/

theorem withSum_eq (ws : Image) : withSum ws = .image ws (BitVec.ofNat 16 (ws.map BitVec.toNat).sum) := by
  rw [withSum, wordSum]
  exact congrArg _ (BitVec.eq_of_toNat_eq (by simp))

/-- The six words of the settings record (R168). -/
theorem settingsRecord_eq (s : State) :
    settingsRecord s =
      withSum [BitVec.ofNat 16 s.tables.mode.code, BitVec.ofNat 16 s.tables.protectSet.toNat,
        BitVec.ofInt 16 s.weigh.tare, BitVec.ofNat 16 s.mgmt.mask.toNat, 0, 0] := by
  rw [settingsRecord, ← BitVec.ofNat_toNat, ← BitVec.ofNat_toNat]

theorem itemContent_kind (s : State) (k : Kind) : itemContent s k.item = storedImage (s.tables.kind k).active := by
  cases k <;> rfl

theorem decidePersist_busy {s : State} (writing : s.tables.persist ≠ .idle) (frame : List Byte) :
    decidePersist frame s = (s, .bare .busy) := by
  unfold decidePersist
  split
  · rfl
  · rename_i idle
    exact absurd idle writing

theorem decidePersist_starts {s : State} (idle : s.tables.persist = .idle) (frame : List Byte) :
    decidePersist frame s =
      ({ s with
          tables :=
            { s.tables with
              persist := .writing .wpt (itemContent s .wpt), persistResult := .none, failedItems := 0 } },
        .bare .ok) := by
  simp only [decidePersist, idle]
  rfl

theorem StoreContents.item_setItem_self (x : StoreContents) (item : PersistItem) (c : Stored) :
    (x.setItem item c).item item = c := by
  cases item <;> rfl

theorem StoreContents.item_setItem_of_ne (x : StoreContents) {i j : PersistItem} (h : j ≠ i) (c : Stored) :
    (x.setItem i c).item j = x.item j := by
  cases i <;> cases j <;> first | rfl | exact absurd rfl h

theorem PersistItem.after_eq_some {item next : PersistItem} (h : next.number = item.number + 1) :
    item.after = some next := by
  revert h
  cases item <;> cases next <;> decide

theorem PersistItem.number_pos (item : PersistItem) : 1 ≤ item.number := by
  cases item <;> decide

/-- The failed items with an item added (R168). -/
theorem failedWith_getLsbD (set : BitVec 6) (item : PersistItem) (b : Fin 6) :
    (failedWith set item).getLsbD b.val = true ↔ set.getLsbD b.val = true ∨ b.val + 1 = item.number := by
  have := item.number_pos
  have := b.isLt
  rw [failedWith, BitVec.getLsbD_or, Bool.or_eq_true, BitVec.getLsbD_twoPow, Bool.and_eq_true, decide_eq_true_eq,
    decide_eq_true_eq]
  exact or_congr_right (by omega)

theorem getD_ne_iff {α : Type} {found : Option α} {taken : α} :
    found.getD taken ≠ taken ↔ ∃ x, found = some x ∧ x ≠ taken := by
  cases found <;> simp

/-- What the end of an item makes of the failed items (R168). -/
theorem endItem_failedItems (item : PersistItem) (taken : Stored) (found : Option Stored) (t : TableStore) (b : Fin 6) :
    (endItem item taken (found.getD taken) t).failedItems.getLsbD b.val = true ↔
      t.failedItems.getLsbD b.val = true ∨ (b.val + 1 = item.number ∧ ∃ x, found = some x ∧ x ≠ taken) := by
  rw [← getD_ne_iff]
  unfold endItem
  by_cases equal : found.getD taken = taken
  · simp [equal]
  · simp only [ne_eq, equal, not_false_eq_true, and_true, if_false, failedWith_getLsbD]

/-- PERSIST_ITEM_END while an item is written (R167, R168). -/
theorem exec_persistItemEnd {s : State} {item : PersistItem} {taken : Stored} (running : s.power = .running)
    (writing : s.tables.persist = .writing item taken) (found : Option Stored) :
    exec (.persistItemEnd found) s = .next
      (match item.after with
        | some next => startItem next { s with tables := endItem item taken (found.getD taken) s.tables }
        | none => startCab (raise .persist
            { s with tables := (endItem item taken (found.getD taken) s.tables).completePersist })) := by
  refine (whileRunning_running _ running).trans ?_
  cases item <;> simp only [writing, PersistItem.after]

end Sys2Proof.Machine

open Sys2Proof Sys2Proof.Machine

/-- Settles O39. -/
theorem writeWordsFillsTheShadow : Obligations.WriteWordsFillsTheShadow := by
  intro s frame rest serving
  refine ⟨_, whileRunning_running _ serving.running, fun range => ?_, fun low high length => ?_⟩
  · exact serve_starts_of_tables serving (decideWriteWords_of_range range _)
  · obtain ⟨n, hn⟩ : ∃ n, n = min (byteAt frame 1).toNat (s.tables.cursorKind.words - s.tables.cursorIndex) :=
      ⟨_, rfl⟩
    have starts := serve_starts_of_tables serving (decideWriteWords_of_count (s := requestTaken rest s) low high hn)
    have fits : n ≤ 3 := by omega
    have words := frameWords_length fits frame
    rw [okOrRange_code] at starts
    rw [← hn]
    refine ⟨(wordsWritten frame n s.tables).shadow, (wordsWritten frame n s.tables).dirty, starts, ?_,
      writeFrom_length .., fun j outside => writeFrom_outside _ _ _ (by rwa [words]), fun i inside => ?_⟩
    · simp only [wordsWritten, Bool.or_eq_true, bne_iff_ne, Nat.one_le_iff_ne_zero]
    · rw [← frameWords_getElem fits inside]
      exact writeFrom_inside _ _ _ _ (by omega)

/-- Settles O40. -/
theorem readWordsAtTheCursor : Obligations.ReadWordsAtTheCursor := by
  intro s frame rest serving
  refine ⟨_, whileRunning_running _ serving.running, fun range => ?_, fun bank low high empty => ?_,
    fun ws bank low high => ⟨fun atEnd => ?_, fun before length => ?_⟩⟩
  · exact serve_starts_of_tables serving (decideReadWords_of_range range _)
  · exact serve_starts_of_tables serving (decideReadWords_of_empty (s := requestTaken rest s) bank low high empty)
  · exact serve_starts_of_tables serving
      ((decideReadWords_of_bank (s := requestTaken rest s) bank low high).trans
        (readAtCursor_at_end (s := requestTaken rest s) atEnd _))
  · obtain ⟨n, hn⟩ : ∃ n, n = min (byteAt frame 2).toNat (s.tables.cursorKind.words - s.tables.cursorIndex) :=
      ⟨_, rfl⟩
    have starts := serve_starts_of_tables serving
      ((decideReadWords_of_bank (s := requestTaken rest s) bank low high).trans
        (readAtCursor_before_end (s := requestTaken rest s) before _ hn))
    have read : ((ws.drop s.tables.cursorIndex).take n).length = n := by
      rw [List.length_take, List.length_drop]
      omega
    rw [okOrRange_code] at starts
    rw [← hn]
    refine ⟨wordsData ((ws.drop s.tables.cursorIndex).take n), starts, by rw [wordsData_length, read], fun i inside => ?_⟩
    have word : (((ws.drop s.tables.cursorIndex).take n)[i]'(by omega)).toNat = fieldAt ws (s.tables.cursorIndex + i) := by
      rw [List.getElem_take, List.getElem_drop, fieldAt, List.getD_eq_getElem]
    have bytes := byteAt_wordsData _ (show i < ((ws.drop s.tables.cursorIndex).take n).length by omega)
    rwa [word] at bytes

/-- Settles O41. -/
theorem commitRefusedByFirstCheck : Obligations.CommitRefusedByFirstCheck := by
  intro s frame rest serving
  refine ⟨_, whileRunning_running _ serving.running, fun noKind => ?_, fun k code => ⟨fun busy => ?_,
    fun idle locked => ?_, fun idle unlocked sum => ?_, fun j idle unlocked sum bad => ?_⟩⟩
  · exact serve_starts_of_tables serving (decideCommit_of_no_kind noKind _)
  · exact serve_starts_of_tables serving
      (decideCommit_of_refusal (s := requestTaken rest s) code (commitRefusal_busy busy))
  · exact serve_starts_of_tables serving
      (decideCommit_of_refusal (s := requestTaken rest s) code
        (commitRefusal_locked idle (protectionAllows_eq_false.2 locked)))
  · exact serve_starts_of_tables serving
      (decideCommit_of_refusal (s := requestTaken rest s) code
        (commitRefusal_checksum idle (mt protectionAllows_eq_false.1 unlocked) sum))
  · refine serve_starts_of_tables serving
      (decideCommit_of_refusal (s := requestTaken rest s) code
        ((commitRefusal_fields idle (mt protectionAllows_eq_false.1 unlocked) sum).trans (congrArg _ bad)))

/-- Settles O42. -/
theorem commitAcceptedReachesItsBlocks : Obligations.CommitAcceptedReachesItsBlocks := by
  intro s frame rest k serving code idle allowed sum passes
  have notRefused : ¬ protectionAllows s.tables k = false := by
    rw [Bool.not_eq_false, protectionAllows_iff]
    intro inSet
    obtain outside | allows := allowed
    · cases outside.symm.trans inSet
    · exact allows
  refine ⟨{ s with tables := s.tables.accept k }, acceptedBy k { s with tables := s.tables.accept k }, _,
    whileRunning_running _ serving.running, rfl, ?_, ?_, ?_, ?_, ?_⟩
  · rintro rfl
    exact (fmtAccepted_eq _).trans (congrArg _ (fmtReached_refresh _))
  · rintro (rfl | rfl) <;> exact abortCycle_eq ..
  · rintro rfl
    rfl
  · rintro rfl
    simp only [acceptedBy, wptAccepted, abortCycle_eq]
  · refine serve_answers serving (st := .ok) (by simp) ?_
    exact (decideCommit_accepted (s := requestTaken rest s) code idle notRefused sum passes).trans
      (congrArg (·, _) (acceptedBy_requests k { s with tables := s.tables.accept k } rest))

/-- Settles O44. -/
theorem persistWritesItemByItem : Obligations.PersistWritesItemByItem := by
  refine ⟨fun s frame rest serving => ⟨_, whileRunning_running _ serving.running, fun writing => ?_, fun idle => ?_⟩,
    fun s k => ⟨fun empty => ?_, fun ws active => ?_⟩, fun s => ?_, fun s item taken found running writing => ?_⟩
  · exact serve_starts_of_tables serving (decidePersist_busy (s := requestTaken rest s) writing frame)
  · exact serve_starts_of_tables serving (decidePersist_starts (s := requestTaken rest s) idle frame)
  · rw [itemContent_kind, empty]
    rfl
  · rw [itemContent_kind, active]
    exact withSum_eq ws
  · exact ⟨_, _, (settingsRecord_eq s).trans (withSum_eq _), rfl, rfl⟩
  · refine ⟨{ s with tables := endItem item taken (found.getD taken) s.tables }, _,
      exec_persistItemEnd running writing found, rfl, fun j other => StoreContents.item_setItem_of_ne _ other _,
      StoreContents.item_setItem_self .., endItem_failedItems item taken found s.tables, fun next follows => ?_, ?_⟩
    · rw [PersistItem.after_eq_some follows]
      rfl
    · rintro rfl
      exact startCab_spec _
end

section
/-! Part 13 of the family 'other': request frames and filtered frames (O45), the notice requests (O47), the reset
sequence (O48) and the status pages (O46). -/

namespace Sys2Proof.Machine

/-- A served request that changes the Management Unit's record alone, without a notice. -/
theorem serve_starts_of_mgmt {req : Option Request} {s : State} {frame : List Byte} {rest : List (List Byte)}
    (h : Serving req s frame rest) {p : Bool} {d : List Byte → State → State × Reply} {m : Management} {st : Status}
    {data : List Byte}
    (hd : d frame { s with cab := { s.cab with requests := rest } } =
      ({ s with cab := { s.cab with requests := rest }, mgmt := m }, { status := st, data := data }))
    (notice : m.noticePending = s.mgmt.noticePending) :
    CabStarts (answeredWith p frame rest st.code data { s with mgmt := m }) (serve req p d s) :=
  serve_starts (w := { s with mgmt := m }) h rfl notice.trans hd

/-! ### Received frames -/

/-- REQUEST_FRAME_RECEIVED on a Cab Port that is down (R187, R188). -/
theorem exec_requestFrameReceived_down {s : State} (down : s.cab.port.mode = .off ∨ s.cab.port.joined = false)
    (data : List Byte) : exec (.requestFrameReceived data) s = .next s := by
  show execRequestFrameReceived data s = _
  rw [execRequestFrameReceived, if_neg (Port.not_up_of_down down), whileRunning_self]

/-- REQUEST_FRAME_RECEIVED on a Cab Port that is up (R173). -/
theorem exec_requestFrameReceived_up {s : State} (running : s.power = .running) (up : s.cab.port.up = true)
    (data : List Byte) :
    exec (.requestFrameReceived data) s = .next
      (if data.length < 8 ∨ 4 ≤ s.cab.requests.length then cabReceives s
      else { cabReceives s with cab := { (cabReceives s).cab with requests := s.cab.requests ++ [data.take 8] } }) := by
  refine (whileRunning_running _ running).trans ?_
  rw [if_pos up]
  rfl

/-- FILTERED_FRAME on a port that is down (R187, R188). -/
theorem exec_filteredFrame_down {s : State} {id : PortId} (down : (portOf s id).mode = .off ∨ (portOf s id).joined = false)
    (frame : BusFrame) : exec (.filteredFrame id frame) s = .next s := by
  show execFilteredFrame id frame s = _
  rw [execFilteredFrame, if_neg (fun h => Port.not_up_of_down down h.1), whileRunning_self]

/-- A frame that the filter drops counts as a correct reception (R184, R187). -/
theorem exec_filteredFrame_dropped {s : State} {id : PortId} {frame : BusFrame} (running : s.power = .running)
    (up : (portOf s id).up = true) (dropped : filterAccepts id s.cab.na frame = false)
    (reception : BusFrame.isReception frame = true) :
    exec (.filteredFrame id frame) s = .next (setPort s id (portOf s id).received) := by
  refine (whileRunning_running _ running).trans ?_
  rw [if_pos ⟨up, dropped, reception⟩]

/-- A frame that the port itself sent has no effect (R184). -/
theorem exec_filteredFrame_own (s : State) (id : PortId) : exec (.filteredFrame id .own) s = .next s := by
  show execFilteredFrame id .own s = _
  rw [execFilteredFrame, if_neg (fun h => absurd h.2.2 (by decide)), whileRunning_self]

/-- The identifiers that neither port's filter accepts (R184). -/
theorem filterAccepts_data_false {id : PortId} {na : Fin 4} {n : Nat}
    (cab : id = .cab → n ≠ 0x1A4 ∧ n ≠ 0x1A5 ∧ n ≠ 0x5C0 + na.val) (crane : id = .crane → n ≠ 0x3C8) :
    filterAccepts id na (.data n) = false := by
  cases id with
  | cab =>
    obtain ⟨primary, auxiliary, request⟩ := cab rfl
    simp [filterAccepts, primary, auxiliary, request]
  | crane => simp [filterAccepts, crane rfl]

/-! ### Notices and the reset sequence -/

theorem decideSetNoticeMask_low {frame : List Byte} (low : pairAt frame 1 < 4096) (s : State) :
    decideSetNoticeMask frame s =
      ({ s with mgmt := { s.mgmt with mask := BitVec.ofNat 12 (pairAt frame 1) } },
        { status := .ok, data := [byteAt frame 1, byteAt frame 2] }) := by
  rw [decideSetNoticeMask, if_pos low, bytes2_pairAt]

theorem decideSetNoticeMask_high {frame : List Byte} (high : 4096 ≤ pairAt frame 1) (s : State) :
    decideSetNoticeMask frame s = (s, .bare .range) :=
  if_neg (by omega)

theorem decideResetExecute_prepared {s : State} (prepared : s.mgmt.prepare = true) (frame : List Byte) :
    decideResetExecute frame s = ({ s with mgmt := { s.mgmt with softResetPending := true } }, .bare .ok) :=
  if_pos prepared

theorem decideResetExecute_unprepared {s : State} (unprepared : s.mgmt.prepare = false) (frame : List Byte) :
    decideResetExecute frame s = (s, .bare .sequence) :=
  if_neg (by simp [unprepared])

theorem NoticeFlag.bit_injective {f g : NoticeFlag} (h : f.bit = g.bit) : f = g := by
  revert h
  cases f <;> cases g <;> decide

/-- Raising a flag sets it and no other (R178). -/
theorem flagSet_raise (f g : NoticeFlag) (s : State) :
    flagSet (raise f s).mgmt.flags g = true ↔ flagSet s.mgmt.flags g = true ∨ g = f := by
  by_cases same : g = f
  · subst same
    exact iff_of_true (raise_getLsbD_self g s) (.inr rfl)
  · rw [or_iff_left same]
    exact Eq.congr_left (raise_getLsbD f s g.bit fun h => same (NoticeFlag.bit_injective h))

/-- Raising a flag requests a notice frame exactly when it was clear and is unmasked (R179). -/
theorem raise_noticePending (f : NoticeFlag) (s : State) :
    (raise f s).mgmt.noticePending = true ↔
      s.mgmt.noticePending = true ∨ (flagSet s.mgmt.flags f = false ∧ flagSet s.mgmt.mask f = false) := by
  simp [raise, Management.raise]

/-! ### Snapshots of the status pages -/

/-- The entries of the four pages (R177). -/
theorem lt_pageEntries_iff (page entry : Nat) :
    entry < pageEntries page ↔
      page ≤ 3 ∧ entry ≤ if page = 0 then 2 else if page = 1 then 7 else if page = 2 then 12 else 8 := by
  match page with
  | 0 | 1 | 2 | 3 => simp [pageEntries, Nat.lt_succ_iff]
  | n + 4 => simp [pageEntries]

theorem pageOf_length (s : State) {page : Nat} (known : page ≤ 3) :
    (pageOf s page).length = (if page = 0 then 2 else if page = 1 then 7 else if page = 2 then 12 else 8) + 1 := by
  match page, known with
  | 0, _ | 2, _ | 3, _ => rfl
  | 1, _ =>
    simp only [pageOf, page1]
    split <;> rfl

theorem Snapshots.get_set_self (x : Snapshots) (page : Nat) (r : PageReading) : (x.set page r).get page = some r := by
  match page with
  | 0 | 1 | 2 | _ + 3 => rfl

theorem Snapshots.get_set_of_ne (x : Snapshots) {page p : Nat} (known : page ≤ 3) (other : p ≤ 3) (ne : p ≠ page)
    (r : PageReading) : (x.set page r).get p = x.get p := by
  interval_cases page <;> interval_cases p <;> first | rfl | exact absurd rfl ne

theorem readingFor_fresh {s : State} {page entry : Nat} (fresh : entry = 0 ∨ s.mgmt.snapshots.get page = none) :
    readingFor s page entry = pageOf s page := by
  unfold readingFor
  split
  · rfl
  · next later => rw [fresh.resolve_left later]

theorem readingFor_kept {s : State} {page entry : Nat} (later : entry ≠ 0) {r : PageReading}
    (kept : s.mgmt.snapshots.get page = some r) : readingFor s page entry = r := by
  rw [readingFor, if_neg later, kept]

theorem decideReadStatus_refused {frame : List Byte}
    (outside : ¬ (byteAt frame 2).toNat < pageEntries (byteAt frame 1).toNat) (s : State) :
    decideReadStatus frame s = (s, .bare .range) :=
  if_neg outside

theorem decideReadStatus_answers {frame : List Byte}
    (inside : (byteAt frame 2).toNat < pageEntries (byteAt frame 1).toNat) (s : State) :
    decideReadStatus frame s =
      ({ s with
          mgmt :=
            { s.mgmt with
              snapshots :=
                s.mgmt.snapshots.set (byteAt frame 1).toNat
                  (readingFor s (byteAt frame 1).toNat (byteAt frame 2).toNat) } },
        { status := .ok,
          data := (readingFor s (byteAt frame 1).toNat (byteAt frame 2).toNat).getD (byteAt frame 2).toNat [] }) :=
  if_pos inside

/-! ### The byte forms and contents of the pages -/

theorem signed2_eq (x : Int) : signed2 x = bytes2 (x % 65536).toNat := by
  rw [signed2, BitVec.toNat_ofInt]
  rfl

theorem signed4_eq (x : Int) : signed4 x = bytes4 (x % 4294967296).toNat := by
  rw [signed4, BitVec.toNat_ofInt]
  rfl

theorem flagByte_eq (b : Bool) : flagByte b = if b then 1 else 0 := rfl

theorem flagByte_isSome {α : Type} (x : Option α) : flagByte x.isSome = if x = none then 0 else 1 := by
  cases x <;> simp [flagByte]

/-- Two flags in one byte. -/
theorem byteOf_bits (a b : Bool) :
    byteOf (bitOf a 0 + bitOf b 1) = (if a then (1 : Byte) else 0) + (if b then 2 else 0) := by
  cases a <;> cases b <;> rfl

theorem ownerCode_byte (o : Option Ownership) :
    byteOf (ownerCode o) =
      match o with
      | none => 0
      | some x => if x.source = .cab then 1 else 2 := by
  obtain _ | ⟨⟨⟩, _⟩ := o <;> rfl

theorem ownerNeutral_bit (o : Option Ownership) :
    (if ownerNeutral o then (1 : Byte) else 0) =
      match o with
      | none => 0
      | some x => if x.neutral then 1 else 0 := by
  cases o <;> rfl

theorem isSome_bit {α : Type} (x : Option α) :
    (if x.isSome then (2 : Byte) else 0) = if x = none then 0 else 2 := by
  cases x <;> simp

/-- The flags of a VALID load result. -/
theorem validLoad_flags {α β : Type} (weight : Option α) (rating : Option β) (stale : Bool) :
    byteOf (bitOf true 0 + bitOf true 1 + bitOf weight.isNone 2 + bitOf rating.isSome 3 + bitOf stale 4) =
      (3 : Byte) + (if weight = none then 4 else 0) + (if rating = none then 0 else 8) + (if stale then 16 else 0) := by
  cases weight <;> cases rating <;> cases stale <;> simp only [reduceCtorEq, if_false, if_true] <;> rfl

theorem cycleByte_eq (c : Cycle) :
    byteOf (cycleByte c) =
      (if c.purpose = .tare then (1 : Byte) else 0) +
        (match c.source with
          | .button => 0
          | .auto => 2
          | .request => 4) := by
  unfold cycleByte
  cases c.purpose <;> cases c.source <;> rfl

theorem cycleBytes_eq (p : WeighPhase) :
    cycleBytes p =
      match p.cycle? with
      | none => [(0 : Byte), 0, 0]
      | some c =>
        [(if c.purpose = .tare then (1 : Byte) else 0) +
          (match c.source with
            | .button => 0
            | .auto => 2
            | .request => 4),
         BitVec.ofNat 8 c.attempt, BitVec.ofNat 8 c.current.n] := by
  unfold cycleBytes
  cases p.cycle? with
  | none => rfl
  | some c =>
    simp only [cycleByte_eq]
    rfl

theorem channelEntry_eq (cs : Six Channel) (i : Fin 6) :
    channelEntry cs i =
      bytes2 (cs.get i).count.toNat ++ signed2 ((cs.get i).value.getD 0) ++
        [BitVec.ofNat 8 ((cs.get i).outCount + 4 * (cs.get i).inCount + (if (cs.get i).faulted then 16 else 0) +
          (if (cs.get i).faulted || (cs.get 5).faulted then 0 else 32)),
         if (cs.get i).value = none then 0 else 1] := by
  have valid : bitOf ((channelValid cs).get i) 5 = if (cs.get i).faulted || (cs.get 5).faulted then 0 else 32 := by
    rw [channelValid, Six.get_build]
    show bitOf (!(cs.get i).faulted && !(cs.get 5).faulted) 5 = _
    cases (cs.get i).faulted <;> cases (cs.get 5).faulted <;> rfl
  simp only [channelEntry, valid, flagByte_isSome]
  rfl

theorem kindEntry_eq (x : KindTable) :
    kindEntry x =
      [if x.active = none then (0 : Byte) else 1, if x.dirty then 1 else 0] ++
        bytes2 (match x.active with
          | none => 0
          | some ws => (ws.map BitVec.toNat).sum % 65536) ++ [0, 0] := by
  rw [kindEntry, flagByte_isSome]
  unfold KindTable.activeSum
  cases x.active <;> rfl

theorem InvalidCause.toFault_byte (cause : InvalidCause) :
    byteOf cause.toFault.code = if cause = .sensor then 2 else 3 := by
  cases cause <;> rfl

theorem persistByte_eq (p : PersistState) :
    byteOf (persistCode p) =
      match p with
      | .idle => 0
      | .writing item _ => BitVec.ofNat 8 item.number := by
  cases p <;> rfl

/-- The table of R177 for a reading of a page. -/
theorem pageContents (s : State) : PageContents s where
  page0 := by
    show page0 s = _
    simp only [page0, ownerCode_byte, byteOf_bits, ownerNeutral_bit, isSome_bit, cycleBytes_eq, beq_iff_eq]
    rfl
  page1Last := by
    show (page1 s)[7]? = _
    unfold page1
    obtain _ | ⟨_, _⟩ | v := s.lau <;> rfl
  page1Absent := by
    intro absent
    show (page1 s).take 7 = _
    rw [page1, absent]
    rfl
  page1Invalid := by
    intro cause stale invalid
    show (page1 s).take 7 = _
    rw [page1, invalid]
    show [byteOf (bitOf true 0 + bitOf stale 4), byteOf cause.toFault.code, 0, 0, 0, 0] :: List.replicate 6 _ = _
    rw [InvalidCause.toFault_byte]
    cases stale <;> rfl
  page1Valid := by
    intro v valid
    show (page1 s).take 7 = _
    rw [page1, valid]
    simp only [page1Valid, validLoad_flags]
    rfl
  page2Channel := by
    intro i
    refine Eq.trans ?_ (congrArg some (channelEntry_eq s.scan.channels i))
    fin_cases i <;> rfl
  page2Section := by
    intro k
    fin_cases k <;> rfl
  page2Slew := rfl
  page3Kind := by
    intro k
    refine Eq.trans ?_ (congrArg some (kindEntry_eq (s.tables.kind k)))
    cases k <;> rfl
  page3Rest := by
    show (page3 s).drop 5 = _
    simp only [page3, List.drop_succ_cons, List.drop_zero, flagByte_eq, persistByte_eq]
    rfl

theorem pageCodes : PageCodes where
  bytes := ⟨fun _ => rfl, fun _ => rfl, signed2_eq, signed4_eq⟩
  resetCause := rfl
  crane := rfl
  limiter := ⟨rfl, fun _ => rfl⟩
  cause := rfl
  weigh := fun _ => rfl
  lastCause := rfl
  direction := rfl
  kind := rfl
  mode := rfl
  item := rfl
  result := rfl
  tally := rfl

end Sys2Proof.Machine

open Sys2Proof Sys2Proof.Machine

/-- Settles O45. -/
theorem requestAndFilteredFrames : Obligations.RequestAndFilteredFrames := by
  refine ⟨fun s data down => exec_requestFrameReceived_down down data,
    fun s id frame down => exec_filteredFrame_down down frame, fun s data running active joined => ?_,
    fun s id running active joined => ?_⟩
  · refine ⟨cabReceives s, _, exec_requestFrameReceived_up running ((Port.up_iff _).2 ⟨active, joined⟩) data, rfl,
      fun length room => ?_, fun discarded => if_pos discarded⟩
    rw [if_neg (by omega), List.take_of_length_le length.le]
  · have up := (Port.up_iff _).2 ⟨active, joined⟩
    refine ⟨fun n cab crane => exec_filteredFrame_dropped running up (filterAccepts_data_false cab crane) rfl,
      exec_filteredFrame_dropped running up ?_ rfl, exec_filteredFrame_dropped running up ?_ rfl,
      exec_filteredFrame_own s id⟩ <;> cases id <;> rfl

/-- Settles O46. -/
theorem readStatusAnswersFromSnapshot : Obligations.ReadStatusAnswersFromSnapshot := by
  refine ⟨fun s frame rest serving => ⟨_, whileRunning_running _ serving.running, fun refused => ?_,
    fun known inPage => ?_⟩, pageContents, pageCodes⟩
  · refine serve_starts_of_mgmt serving
      (decideReadStatus_refused (s := requestTaken rest s) fun inside => ?_) rfl
    obtain ⟨known, inPage⟩ := (lt_pageEntries_iff _ _).1 inside
    obtain beyond | ⟨_, beyond⟩ := refused
    · exact absurd known (not_le.2 beyond)
    · exact absurd inPage (not_le.2 beyond)
  · have inside := (lt_pageEntries_iff _ _).2 ⟨known, inPage⟩
    refine ⟨_, readingFor s (byteAt frame 1).toNat (byteAt frame 2).toNat, _,
      serve_starts_of_mgmt serving (decideReadStatus_answers inside (requestTaken rest s)) rfl,
      Snapshots.get_set_self .., rfl, fun fresh => ?_, fun later r kept => readingFor_kept later kept,
      fun p other ne => Snapshots.get_set_of_ne _ known other ne _⟩
    rw [readingFor_fresh fresh]
    exact ⟨rfl, pageOf_length s known⟩

/-- Settles O47. -/
theorem noticeFlagsAndMask : Obligations.NoticeFlagsAndMask := by
  refine ⟨fun s frame rest => ⟨fun serving => ?_, fun serving => ⟨_, whileRunning_running _ serving.running,
    fun low => ?_, fun high => ?_⟩⟩, fun s f => ⟨rfl, fun g => flagSet_raise f g s, raise_noticePending f s⟩⟩
  · exact ⟨_, whileRunning_running _ serving.running,
      serve_starts_of_mgmt (m := { s.mgmt with flags := 0 }) (st := .ok) serving rfl rfl⟩
  · exact serve_starts_of_mgmt serving (decideSetNoticeMask_low low (requestTaken rest s)) rfl
  · exact serve_starts_of_mgmt serving (decideSetNoticeMask_high high (requestTaken rest s)) rfl

/-- Settles O48. -/
theorem resetSequenceAndUnknownCodes : Obligations.ResetSequenceAndUnknownCodes := by
  intro s frame rest
  refine ⟨fun serving => ?_, fun serving => ⟨_, whileRunning_running _ serving.running, fun prepared => ?_,
    fun unprepared => ?_⟩, fun serving => ?_⟩
  · exact ⟨_, whileRunning_running _ serving.running, serve_starts_of_mgmt (st := .ok) serving rfl rfl⟩
  · exact serve_starts_of_mgmt serving (decideResetExecute_prepared (s := requestTaken rest s) prepared frame) rfl
  · exact serve_starts_of_mgmt serving (decideResetExecute_unprepared (s := requestTaken rest s) unprepared frame) rfl
  · exact ⟨_, whileRunning_running _ serving.running, serve_starts_of_mgmt (st := .unknown) serving rfl rfl⟩
end

section
/-! Part 14 of the family 'other': the ports – transmission ends of the Cab Port (O49), errors and bus-off (O50),
recovery and joining (O51). -/

namespace Sys2Proof.Machine

/-! ### Transmission ends of the Cab Port -/

theorem CabPort.sendsResponse_of_flight {c : CabPort} {sentOn : Nat} (h : c.flight = some (.response sentOn)) :
    c.sendsResponse = true := by
  rw [CabPort.sendsResponse, h]

theorem responseEnds_of_oldest {s : State} {r : List Byte} {more : List (List Byte)}
    (oldest : s.cab.responses = r :: more) :
    responseEnds s =
      { s with
        cab :=
          { s.cab with
            port := { s.cab.port with txErrors := s.cab.port.txErrors - 1 }, responses := more, flight := none } } := by
  rw [responseEnds, oldest]
  rfl

/-- A response that is not that of an accepted RESET_EXECUTE, or no pending soft reset (R181). -/
theorem resetAtEnd_eq_false {s : State} {r : List Byte} {more : List (List Byte)}
    (oldest : s.cab.responses = r :: more)
    (other : s.mgmt.softResetPending = false ∨ byteAt r 0 ≠ 0x61 ∨ byteAt r 1 ≠ 0) : resetAtEnd s = false := by
  rw [resetAtEnd, oldest, List.headD_cons, Bool.and_eq_false_iff, isResetResponse, Bool.and_eq_false_iff]
  refine other.imp_right (Or.imp (fun code => ?_) (fun status => ?_))
  · exact beq_eq_false_iff_ne.2 fun reset => code (requestOf_resetExecute reset)
  · exact beq_eq_false_iff_ne.2 fun ok => status (BitVec.eq_of_toNat_eq ok)

/-- RESPONSE_TRANSMISSION_END without a soft reset (R175, R185). -/
theorem exec_responseTransmissionEnd {s : State} (running : s.power = .running) (up : s.cab.port.up = true)
    (sends : s.cab.sendsResponse = true) (noReset : resetAtEnd s = false) :
    exec .responseTransmissionEnd s = .next (startCab (responseEnds s)) := by
  refine (whileRunning_running _ running).trans ?_
  rw [if_pos ⟨up, sends⟩]
  simp only [noReset]
  rfl

/-- NOTICE_TRANSMISSION_END with a notice in flight (R185, R187). -/
theorem exec_noticeTransmissionEnd {s : State} {sentOn : Nat} {content : List Byte} (running : s.power = .running)
    (up : s.cab.port.up = true) (flight : s.cab.flight = some (.notice sentOn content)) :
    exec .noticeTransmissionEnd s =
      .next (startCab { s with cab := { s.cab with port := s.cab.port.sent, flight := none } }) := by
  refine (whileRunning_running _ running).trans ?_
  simp only [flight, if_pos up]

/-! ### Errors -/

/-- CAN_ERROR on a port that is up and takes part in the frame (R187). -/
theorem exec_canError {s : State} {id : PortId} {role : ErrorRole} (running : s.power = .running)
    (up : (portOf s id).up = true) (takesPart : role = .receiving ∨ portSends s id = true) :
    exec (.canError id role) s = .next
      (if 255 < ((portOf s id).withError role).txErrors then
        startCab (busOff id (setPort s id ((portOf s id).withError role)))
      else setPort s id ((portOf s id).withError role)) := by
  refine (whileRunning_running _ running).trans ?_
  rw [if_pos ⟨up, takesPart⟩]

/-- A Cab Port that is OFF starts nothing (R187). -/
theorem startCab_off {u : State} (off : u.cab.port.mode = .off) : startCab u = u := by
  have spec := startCab_spec u
  rwa [CabStarts, if_neg fun free => by cases off.symm.trans free.1] at spec

/-- The Cab Port goes OFF with a response in flight, which it keeps (R186, R187). -/
theorem busOff_cab_response {s : State} {sentOn : Nat} (flight : s.cab.flight = some (.response sentOn)) (p : Port) :
    busOff .cab (setPort s .cab p) = raise .port { s with cab := { s.cab with port := p.goOff, flight := none } } := by
  have drops : dropCabFlight (setPort s .cab p.goOff) =
      { s with cab := { s.cab with port := p.goOff, flight := none } } := by
    simp only [dropCabFlight, setPort, flight]
  exact congrArg (raise .port) drops

/-- The Cab Port goes OFF with a notice in flight, which it abandons (R179, R187). -/
theorem busOff_cab_notice {s : State} {sentOn : Nat} {content : List Byte}
    (flight : s.cab.flight = some (.notice sentOn content)) (p : Port) :
    busOff .cab (setPort s .cab p) =
      raise .port
        { s with
          cab := { s.cab with port := p.goOff, flight := none }
          mgmt := { s.mgmt with noticePending := true } } := by
  have drops : dropCabFlight (setPort s .cab p.goOff) =
      { s with
        cab := { s.cab with port := p.goOff, flight := none }
        mgmt := { s.mgmt with noticePending := true } } := by
    simp only [dropCabFlight, setPort, flight]
  exact congrArg (raise .port) drops

/-- The Crane Port goes OFF with a valve frame in flight (R78, R104, R187). -/
theorem busOff_crane {s : State} (sends : portSends s .crane = true) (p : Port) :
    busOff .crane (setPort s .crane p) =
      raise .port (activeSentToReady
        { s with crane := { port := p.goOff, flight := none }, valve := { s.valve with pending := true } }) := by
  obtain ⟨frame, flight⟩ := Option.isSome_iff_exists.1 sends
  have drops : dropCraneFlight (setPort s .crane p.goOff) =
      { s with crane := { port := p.goOff, flight := none }, valve := { s.valve with pending := true } } := by
    simp only [dropCraneFlight, setPort, flight]
  rw [← activeToReady_eq]
  exact congrArg (fun t => raise .port (activeToReady t)) drops

/-! ### Recovery and joining -/

/-- A valve frame that already waits is the one requested (R99, R100). -/
theorem startValve_of_pending {u : State} (pending : u.valve.pending = true) : startValve u = valveRequested u := by
  rw [← requestValve_eq, requestValve, ← pending]

/-- What waits starts on the port (R100, R185). -/
theorem startWaiting_spec (id : PortId) (u : State) :
    (id = .cab → CabStarts u (startWaiting id u)) ∧
    (id = .crane → u.valve.pending = true → CabStarts (valveRequested u) (startWaiting id u)) ∧
    (id = .crane → u.valve.pending = false → CabStarts u (startWaiting id u)) := by
  refine ⟨?_, ?_, ?_⟩ <;> rintro rfl
  · exact startCab_spec u
  · intro pending
    rw [← startValve_of_pending pending]
    exact startCab_spec _
  · intro idle
    rw [startWaiting, startValve_idle idle]
    exact startCab_spec u

/-- A run of recessive bits below the limit raises the recovery count (R187). -/
theorem exec_recessiveRun_counts {s : State} {id : PortId} (running : s.power = .running)
    (off : (portOf s id).mode = .off) (below : (portOf s id).recovery < 127) :
    exec (.recessiveRunWhileOff id) s =
      .next (setPort s id { portOf s id with recovery := (portOf s id).recovery + 1 }) := by
  have short : ¬ recoveryLimit ≤ (portOf s id).recovery + 1 := by
    rw [recoveryLimit]
    omega
  refine (whileRunning_running _ running).trans ?_
  simp only [if_pos off, if_neg short]

/-- The 128th run makes the port ACTIVE, under either command (R187; log entry 4). -/
theorem exec_recovers {s : State} {id : PortId} {c : Instr} (command : c = .recessiveRunWhileOff id ∨ c = .portRecovery id)
    (running : s.power = .running) (off : (portOf s id).mode = .off) (count : (portOf s id).recovery = 127) :
    exec c s = .next (recoverPort id s) := by
  have reached : recoveryLimit ≤ (portOf s id).recovery + 1 := by
    rw [recoveryLimit]
    omega
  obtain rfl | rfl := command
  · refine (whileRunning_running _ running).trans ?_
    simp only [if_pos off, if_pos reached]
  · refine (whileRunning_running _ running).trans ?_
    rw [if_pos ⟨off, reached⟩]

/-- PORT_JOIN on a port that has not joined (R188). -/
theorem exec_portJoin {s : State} {id : PortId} (running : s.power = .running) (apart : (portOf s id).joined = false) :
    exec (.portJoin id) s = .next (startWaiting id (setPort s id { portOf s id with joined := true })) := by
  refine (whileRunning_running _ running).trans ?_
  rw [if_neg (by rw [apart]; decide)]

end Sys2Proof.Machine

open Sys2Proof Sys2Proof.Machine

/-- Settles O49. -/
theorem cabTransmissionEnds : Obligations.CabTransmissionEnds := by
  intro s running active joined
  have up := (Port.up_iff _).2 ⟨active, joined⟩
  refine ⟨fun r more sentOn flight oldest other => ?_, fun sentOn content flight =>
    ⟨_, exec_noticeTransmissionEnd running up flight, startCab_spec _⟩⟩
  refine ⟨_, exec_responseTransmissionEnd running up (CabPort.sendsResponse_of_flight flight)
    (resetAtEnd_eq_false oldest other), ?_⟩
  rw [responseEnds_of_oldest oldest]
  exact startCab_spec _

/-- Settles O50. -/
theorem portErrorsAndBusOff : Obligations.PortErrorsAndBusOff := by
  intro s id running active joined
  have up := (Port.up_iff _).2 ⟨active, joined⟩
  refine ⟨fun below => ?_, fun sends below => ?_, fun sends above => ?_⟩
  · rw [exec_canError running up (.inl rfl)]
    exact congrArg _ (if_neg (not_lt.2 below))
  · rw [exec_canError running up (.inr sends)]
    exact congrArg _ (if_neg (not_lt.2 below))
  · refine ⟨startCab (busOff id (setPort s id ((portOf s id).withError .transmitting))), ?_, ?_, ?_, ?_⟩
    · rw [exec_canError running up (.inr sends)]
      exact congrArg _ (if_pos above)
    · rintro sentOn rfl flight
      rw [busOff_cab_response flight]
      exact startCab_off rfl
    · rintro sentOn content rfl flight
      rw [busOff_cab_notice flight]
      exact startCab_off rfl
    · rintro rfl
      rw [busOff_crane sends]
      exact startCab_spec _

/-- Settles O51. -/
theorem portsRecoverAndJoin : Obligations.PortsRecoverAndJoin := by
  intro s id running
  refine ⟨exec_recessiveRun_counts running, fun c command off count _ =>
    ⟨_, exec_recovers command running off count, ?_⟩, fun _ apart => ⟨_, exec_portJoin running apart, ?_⟩⟩
  · obtain ⟨cab, requested, idle⟩ := startWaiting_spec id (raise .port (setPort s id (portOf s id).recover))
    simp only [raise_valve, setPort_valve] at requested idle
    exact ⟨cab, fun crane pending _ => requested crane pending, idle⟩
  · obtain ⟨cab, requested, idle⟩ := startWaiting_spec id (setPort s id { portOf s id with joined := true })
    simp only [setPort_valve] at requested idle
    exact ⟨cab, fun crane pending _ => requested crane pending, idle⟩
end
